-- ==== Sys2Proof/Word.lean ====
section
/-! DEFINITION. The machine's bit vectors: the 16-bit word (R20), the octet (R13, R62) and the 32-bit
double-width result that is split over a general register and EX (R20). Signed readings are two's
complement (R8; log 26): `BitVec.toNat` is the spec's `u`, `BitVec.toInt` its `s`. -/

namespace Sys2Proof

/-- A machine word (R20). -/
abbrev Word := BitVec 16

/-- An octet, half of a word (R62). -/
abbrev Byte := BitVec 8

/-- A double-width result (R20). -/
abbrev DWord := BitVec 32

end Sys2Proof
end

