-- ==== Sys2Proof/Config.lean ====
section
/-! DEFINITION. The named parameters of R6, one field of `Config` each (log 31). Every definition that a
parameter touches takes the configuration as its last argument, with `Machine.params` (Machine/Params.lean),
the spec's defaults, where none is given. The OPEN values of the defaults are free values (`opaque`, no
body). What the platform does (`PLATFORM_HWI`, `PLATFORM_IRQ`) is an input of the step and stands in State. -/

namespace Sys2Proof

/-- `OCTET_ORDER` (R62, D1): which octet of a word stands first in an octet view of memory. -/
inductive OctetOrder where
  | msFirst
  | lsFirst
deriving DecidableEq, Repr

/-- How a field or addend is widened: `EX_ADDEND_EXT` (D8, U16) and `UNA_MSG_EXT` (D19, U21). -/
inductive Extension where
  | zero
  | sign
deriving DecidableEq, Repr

/-- `DVI_ROUND` (D10, R178): rounding of the signed 32-bit quotient of `dvi`. -/
inductive QuotientRounding where
  | towardZero
  | floor
deriving DecidableEq, Repr

/-- `MDI_SIGN` (D13, R180): whose sign the remainder of `mdi` has. -/
inductive RemainderSign where
  | dividend
  | divisor
deriving DecidableEq, Repr

/-- `GBS_SRC` (D15, U20): whether `gbs` reads the register numbered b or the field b itself. -/
inductive GbsSource where
  | register
  | field
deriving DecidableEq, Repr

/-- `SHIFT_COUNT` (D17, U8): how much of the count operand a shift uses. -/
inductive ShiftCount where
  | full
  | low5
  | low4
deriving DecidableEq, Repr

/-- `FL_RESERVED` (D22, U5): what a write leaves in FL bits 13 to 1. -/
inductive FlReserved where
  | storage
  | readZero
deriving DecidableEq, Repr

/-- `UNASSIGNED_OP` (D24, R105, U1 to U3): how the machine stops at a code without a table row. Neither
gives it a meaning; R105 rules out a no-op and an interrupt. -/
inductive UnassignedOp where
  | fault
  | refuse
deriving DecidableEq, Repr

/-- One region of `PLATFORM_MAP` (R71, D34): `size` words from word address `base` on that are not plain
read-write memory. -/
structure PlatformRegion where
  base : Nat
  size : Nat
deriving DecidableEq, Repr

/-- A word address lies in a region of the platform. -/
def PlatformRegion.covers (r : PlatformRegion) (a : Word) : Bool :=
  decide (r.base ≤ a.toNat) && decide (a.toNat < r.base + r.size)

/-- The parameters of the step relation and of the reset (R6, R43): one machine runs with one `Config`. -/
structure Config where
  /-- `OCTET_ORDER` (D1). -/
  octetOrder : OctetOrder
  /-- `EX_ADDEND_EXT` (D8). -/
  exAddendExt : Extension
  /-- `DVI_ROUND` (D10). -/
  dviRound : QuotientRounding
  /-- `DIV0_EX` (D11): EX after a division by zero; the argument numbers the draw (log 6). -/
  divZeroEx : Nat → Word
  /-- `MDI_SIGN` (D13). -/
  mdiSign : RemainderSign
  /-- `GBS_SRC` (D15). -/
  gbsSource : GbsSource
  /-- `GBS_ZERO` (D16): the result of `gbs` on 0; the argument numbers the draw (log 7). -/
  gbsOfZero : Nat → Word
  /-- `SHIFT_COUNT` (D17). -/
  shiftCount : ShiftCount
  /-- `ROT_COUNT` (D18, U9): the places that a rotate with a count of 16 or more moves; smaller counts are
  themselves (log 17). -/
  rotCount : Word → Fin 16
  /-- `UNA_MSG_EXT` (D19). -/
  unaMsgExt : Extension
  /-- `CREG_RESERVED` (D21): what a read of c2 or c3 delivers; the arguments number the draw and give what
  the reserved register holds (log 4). -/
  reservedRead : Nat → Word → Word
  /-- `FL_RESERVED` (D22). -/
  flReserved : FlReserved
  /-- `UNASSIGNED_OP` (D24). -/
  unassignedOp : UnassignedOp
  /-- `PLATFORM_MAP` (D34): the regions that are not plain read-write memory (log 32). -/
  platformMap : List PlatformRegion
  /-- `RESET_PC` (D32). -/
  resetPc : Word
  /-- `RESET_FL` (D32). -/
  resetFl : Word
  /-- `RESET_REGS` (D32): r1 to r31. -/
  resetRegs : Vector Word 31
  /-- EX at reset, unspecified like `RESET_REGS` (R44). -/
  resetEx : Word
  /-- What c2 holds at reset (R44). -/
  resetC2 : Word
  /-- What c3 holds at reset (R44). -/
  resetC3 : Word
  /-- IA at reset (R44). -/
  resetIa : Word
  /-- IM at reset (R44). -/
  resetIm : Word
  /-- IR at reset (R44). -/
  resetIr : Word
  /-- `RESET_MEM` (D32): the loaded image as octets by octet address, in the form of `Machine.Memory.wf`. -/
  resetMem : List Host.Cell

/-- The default of `DIV0_EX` (R177, R178, D11): any value (log 6). -/
opaque Config.div0Ex : Nat → Word

/-- The default of `GBS_ZERO` (R182, D16): any value (log 7). -/
opaque Config.gbsZero : Nat → Word

/-- The default of `CREG_RESERVED` (R30, D21): any value (log 4). -/
opaque Config.cregReserved : Nat → Word → Word

end Sys2Proof
end

