-- ==== Sys2Proof/Machine/Params.lean ====
section
/-! DEFINITION. The parameter values the machine runs with: the "spec's default" column of R6. -/

namespace Sys2Proof.Machine

/-- The rotate count modulo 16, the spec's default of `ROT_COUNT` (R218, D18). -/
def countModulo16 (b : Word) : Fin 16 := ⟨b.toNat % 16, Nat.mod_lt _ (by decide)⟩

/-- The spec's defaults (R6; each value is the decision named there, logs 1, 4 to 7 and 11 to 18, 25).
The OPEN reset values of registers and memory are the model's choice (logs 2, 3, 4). -/
def params : Config where
  octetOrder   := .msFirst
  exAddendExt  := .zero
  dviRound     := .towardZero
  divZeroEx    := Config.div0Ex
  mdiSign      := .dividend
  gbsSource    := .register
  gbsOfZero    := Config.gbsZero
  shiftCount   := .full
  rotCount     := countModulo16
  unaMsgExt    := .zero
  reservedRead := Config.cregReserved
  flReserved   := .storage
  unassignedOp := .fault
  platformMap  := []
  resetPc      := 0x0000#16
  resetFl      := 0x0001#16
  resetRegs    := Vector.replicate 31 0#16
  resetEx      := 0#16
  resetC2      := 0#16
  resetC3      := 0#16
  resetIa      := 0#16
  resetIm      := 0#16
  resetIr      := 0#16
  resetMem     := []

end Sys2Proof.Machine
end

