-- ==== Sys2Proof/Syntax.lean ====
section
/-! DEFINITION. The 74 instructions of R104, one constructor per row of spec/opcode_table.json, with
their operands: register numbers, the k operand of R100, and immediates as the numbers they stand for
(R96 to R99). -/

namespace Sys2Proof

/-- A general register number, r0 to r31 (R21). -/
abbrev Reg := Fin 32

/-- The eight control registers c0 to c7 (R26). -/
inductive Creg where
  | pc
  | ex
  | c2
  | c3
  | ia
  | im
  | ir
  | fl
deriving DecidableEq, Repr

/-- The access modes of `mtc` and `mfc` (R100): 00, 01, 10, 11. -/
inductive AccessMode where
  | set
  | and
  | ior
  | xor
deriving DecidableEq, Repr

/-- The k operand (R100): access mode in bits 4 to 3, control register index in bits 2 to 0. -/
structure CregSel where
  mode : AccessMode
  idx  : Creg
deriving DecidableEq, Repr

/-- The instructions of R101, R102 and R103. `imp brk` carries its unused field a and second word
(R106), so that no bit of an encoding is lost; its meaning ignores them. -/
inductive Instr where
  /-- `mov`, ORD ID 01: R131. -/
  | mov (a b : Reg)
  /-- `mtc`, ORD ID 02: R132. -/
  | mtc (k : CregSel) (b : Reg)
  /-- `mfc`, ORD ID 03: R133. -/
  | mfc (a : Reg) (k : CregSel)
  /-- `str`, ORD ID 04: R150. -/
  | str (a b : Reg)
  /-- `psh`, ORD ID 05: R151. -/
  | psh (a b : Reg)
  /-- `loa`, ORD ID 06: R152. -/
  | loa (a b : Reg)
  /-- `pop`, ORD ID 07: R153. -/
  | pop (a b : Reg)
  /-- `mom`, ORD ID 08: R154. -/
  | mom (a b : Reg)
  /-- `srl`, ORD ID 09: R261. -/
  | srl (a b : Reg)
  /-- `add`, ORD ID 10: R171. -/
  | add (a b : Reg)
  /-- `adx`, ORD ID 11: R172. -/
  | adx (a b : Reg)
  /-- `sub`, ORD ID 12: R173. -/
  | sub (a b : Reg)
  /-- `sbx`, ORD ID 13: R174. -/
  | sbx (a b : Reg)
  /-- `mul`, ORD ID 14: R175. -/
  | mul (a b : Reg)
  /-- `mli`, ORD ID 15: R176. -/
  | mli (a b : Reg)
  /-- `div`, ORD ID 16: R177. -/
  | div (a b : Reg)
  /-- `dvi`, ORD ID 17: R178. -/
  | dvi (a b : Reg)
  /-- `mod`, ORD ID 18: R179. -/
  | mod (a b : Reg)
  /-- `mdi`, ORD ID 19: R180. -/
  | mdi (a b : Reg)
  /-- `inc`, ORD ID 1a: R181. -/
  | inc (a : Reg) (imm : Int)
  /-- `gbs`, ORD ID 1b: R182. -/
  | gbs (a b : Reg)
  /-- `and`, ORD ID 20: R211. -/
  | and (a b : Reg)
  /-- `ior`, ORD ID 21: R212. -/
  | ior (a b : Reg)
  /-- `xor`, ORD ID 22: R213. -/
  | xor (a b : Reg)
  /-- `bic`, ORD ID 23: R214. -/
  | bic (a b : Reg)
  /-- `shl`, ORD ID 24: R215. -/
  | shl (a b : Reg)
  /-- `asr`, ORD ID 25: R216. -/
  | asr (a b : Reg)
  /-- `shr`, ORD ID 26: R217. -/
  | shr (a b : Reg)
  /-- `rol`, ORD ID 27: R218. -/
  | rol (a b : Reg)
  /-- `ror`, ORD ID 28: R219. -/
  | ror (a b : Reg)
  /-- `tst`, ORD ID 29: R241. -/
  | tst (a b : Reg)
  /-- `teq`, ORD ID 2a: R242. -/
  | teq (a b : Reg)
  /-- `cmp`, ORD ID 2b: R243. -/
  | cmp (a b : Reg)
  /-- `cmn`, ORD ID 2c: R244. -/
  | cmn (a b : Reg)
  /-- `jmp`, UNA ID 30: R263. -/
  | jmp (off : Int)
  /-- `jlt`, UNA ID 31: R264. -/
  | jlt (off : Int)
  /-- `jle`, UNA ID 32: R265. -/
  | jle (off : Int)
  /-- `jgt`, UNA ID 33: R266. -/
  | jgt (off : Int)
  /-- `jge`, UNA ID 34: R267. -/
  | jge (off : Int)
  /-- `jeq`, UNA ID 35: R268. -/
  | jeq (off : Int)
  /-- `jne`, UNA ID 36: R269. -/
  | jne (off : Int)
  /-- `swi`, UNA ID 3b: R281. -/
  | swi (c : Nat)
  /-- `hwi`, UNA ID 3c: R282. -/
  | hwi (c : Nat)
  /-- `ire`, UNA ID 3d: R284. -/
  | ire (c : Nat)
  /-- `imp brk`, IMP ID 00: R285. -/
  | impBrk (a : Reg) (n : Word)
  /-- `imp mov`, IMP ID 01: R134. -/
  | impMov (a : Reg) (n : Word)
  /-- `imp mtc`, IMP ID 02: R135. -/
  | impMtc (k : CregSel) (n : Word)
  /-- `imp str`, IMP ID 03: R155. -/
  | impStr (a : Reg) (n : Word)
  /-- `imp psh`, IMP ID 04: R156. -/
  | impPsh (a : Reg) (n : Word)
  /-- `imp srl`, IMP ID 05: R262. -/
  | impSrl (a : Reg) (n : Word)
  /-- `imp add`, IMP ID 08: R183. -/
  | impAdd (a : Reg) (n : Word)
  /-- `imp adx`, IMP ID 09: R184. -/
  | impAdx (a : Reg) (n : Word)
  /-- `imp sub`, IMP ID 0a: R185. -/
  | impSub (a : Reg) (n : Word)
  /-- `imp sbx`, IMP ID 0b: R186. -/
  | impSbx (a : Reg) (n : Word)
  /-- `imp mul`, IMP ID 0c: R187. -/
  | impMul (a : Reg) (n : Word)
  /-- `imp mli`, IMP ID 0d: R188. -/
  | impMli (a : Reg) (n : Word)
  /-- `imp div`, IMP ID 0e: R189. -/
  | impDiv (a : Reg) (n : Word)
  /-- `imp dvi`, IMP ID 0f: R190. -/
  | impDvi (a : Reg) (n : Word)
  /-- `imp mod`, IMP ID 10: R191. -/
  | impMod (a : Reg) (n : Word)
  /-- `imp mdi`, IMP ID 11: R192. -/
  | impMdi (a : Reg) (n : Word)
  /-- `imp inc`, IMP ID 12: R193. -/
  | impInc (a : Reg) (n : Word)
  /-- `imp and`, IMP ID 13: R220. -/
  | impAnd (a : Reg) (n : Word)
  /-- `imp ior`, IMP ID 14: R221. -/
  | impIor (a : Reg) (n : Word)
  /-- `imp xor`, IMP ID 15: R222. -/
  | impXor (a : Reg) (n : Word)
  /-- `imp bic`, IMP ID 16: R223. -/
  | impBic (a : Reg) (n : Word)
  /-- `imp shl`, IMP ID 17: R224. -/
  | impShl (a : Reg) (n : Word)
  /-- `imp asr`, IMP ID 18: R225. -/
  | impAsr (a : Reg) (n : Word)
  /-- `imp shr`, IMP ID 19: R226. -/
  | impShr (a : Reg) (n : Word)
  /-- `imp rol`, IMP ID 1a: R227. -/
  | impRol (a : Reg) (n : Word)
  /-- `imp ror`, IMP ID 1b: R228. -/
  | impRor (a : Reg) (n : Word)
  /-- `imp tst`, IMP ID 1c: R245. -/
  | impTst (a : Reg) (n : Word)
  /-- `imp teq`, IMP ID 1d: R246. -/
  | impTeq (a : Reg) (n : Word)
  /-- `imp cmp`, IMP ID 1e: R247. -/
  | impCmp (a : Reg) (n : Word)
  /-- `imp cmn`, IMP ID 1f: R248. -/
  | impCmn (a : Reg) (n : Word)
deriving DecidableEq, Repr

end Sys2Proof
end

