-- ==== Sys2Proof/WellFormed.lean ====
section
/-! DEFINITION. Which instruction terms an encoding can hold: the ranges of the three immediate
operands. Every other operand's type is its range. -/

namespace Sys2Proof

/-- The 5-bit signed immediate of ORD `inc` (R96). -/
def immOk (imm : Int) : Bool := decide (-16 ≤ imm ∧ imm ≤ 15)

/-- The 10-bit signed word offset of the jumps (R97). -/
def offOk (off : Int) : Bool := decide (-512 ≤ off ∧ off ≤ 511)

/-- The 10-bit unsigned operand of `swi`, `hwi`, `ire` (R98). -/
def msgOk (c : Nat) : Bool := decide (c ≤ 1023)

/-- The operands fit the fields of the encoding (R92 to R100). -/
def Instr.wellFormed : Instr → Bool
  | .mov _ _ => true
  | .mtc _ _ => true
  | .mfc _ _ => true
  | .str _ _ => true
  | .psh _ _ => true
  | .loa _ _ => true
  | .pop _ _ => true
  | .mom _ _ => true
  | .srl _ _ => true
  | .add _ _ => true
  | .adx _ _ => true
  | .sub _ _ => true
  | .sbx _ _ => true
  | .mul _ _ => true
  | .mli _ _ => true
  | .div _ _ => true
  | .dvi _ _ => true
  | .mod _ _ => true
  | .mdi _ _ => true
  | .inc _ imm => immOk imm
  | .gbs _ _ => true
  | .and _ _ => true
  | .ior _ _ => true
  | .xor _ _ => true
  | .bic _ _ => true
  | .shl _ _ => true
  | .asr _ _ => true
  | .shr _ _ => true
  | .rol _ _ => true
  | .ror _ _ => true
  | .tst _ _ => true
  | .teq _ _ => true
  | .cmp _ _ => true
  | .cmn _ _ => true
  | .jmp off => offOk off
  | .jlt off => offOk off
  | .jle off => offOk off
  | .jgt off => offOk off
  | .jge off => offOk off
  | .jeq off => offOk off
  | .jne off => offOk off
  | .swi c => msgOk c
  | .hwi c => msgOk c
  | .ire c => msgOk c
  | .impBrk _ _ => true
  | .impMov _ _ => true
  | .impMtc _ _ => true
  | .impStr _ _ => true
  | .impPsh _ _ => true
  | .impSrl _ _ => true
  | .impAdd _ _ => true
  | .impAdx _ _ => true
  | .impSub _ _ => true
  | .impSbx _ _ => true
  | .impMul _ _ => true
  | .impMli _ _ => true
  | .impDiv _ _ => true
  | .impDvi _ _ => true
  | .impMod _ _ => true
  | .impMdi _ _ => true
  | .impInc _ _ => true
  | .impAnd _ _ => true
  | .impIor _ _ => true
  | .impXor _ _ => true
  | .impBic _ _ => true
  | .impShl _ _ => true
  | .impAsr _ _ => true
  | .impShr _ _ => true
  | .impRol _ _ => true
  | .impRor _ _ => true
  | .impTst _ _ => true
  | .impTeq _ _ => true
  | .impCmp _ _ => true
  | .impCmn _ _ => true

end Sys2Proof
end

