-- ==== Sys2Proof/Decode.lean ====
section
/-! DEFINITION. Decoding (R90 to R105), total and rejecting by name, then the encoder of the same
tables, the opcode table of R104, and the octet view of instruction words (R62). -/

namespace Sys2Proof

/-- Why a sequence of words is no instruction. -/
inductive DecodeReject where
  /-- An ORD ID without a table row (R105). -/
  | unassignedOrd (id : Nat)
  /-- A UNA ID without a table row (R105). -/
  | unassignedUna (id : Nat)
  /-- An IMP ID without a table row (R105). -/
  | unassignedImp (id : Nat)
  /-- Fewer words than the length rule asks for (R90). -/
  | truncated
deriving DecidableEq, Repr

/-- The opcode field, bits 5 to 0 (R91). -/
def opcodeOf (w : Word) : Nat := w.toNat % 64

/-- Bits 10 to 6: field a of ORD (R92), the subopcode of IMP (R94). -/
def midField (w : Word) : Nat := w.toNat / 64 % 32

/-- Bits 15 to 11: field b of ORD (R92), field a of IMP (R94). -/
def highField (w : Word) : Nat := w.toNat / 2048

/-- Bits 15 to 6: the operand c of UNA (R93). -/
def unaField (w : Word) : Nat := w.toNat / 64

/-- A 5-bit field as a register number (R92, R94). -/
def regOf (f : Nat) : Reg := Fin.ofNat 32 f

/-- A 5-bit field in two's complement (R96). -/
def signed5 (f : Nat) : Int := if f < 16 then f else (f : Int) - 32

/-- A 10-bit field in two's complement (R97). -/
def signed10 (f : Nat) : Int := if f < 512 then f else (f : Int) - 1024

/-- The control register of an index 0 to 7 (R26). -/
def cregOf : Nat → Creg
  | 0 => .pc
  | 1 => .ex
  | 2 => .c2
  | 3 => .c3
  | 4 => .ia
  | 5 => .im
  | 6 => .ir
  | _ => .fl

/-- The access mode of a code 0 to 3 (R100). -/
def modeOf : Nat → AccessMode
  | 0 => .set
  | 1 => .and
  | 2 => .ior
  | _ => .xor

/-- The k operand of a 5-bit field (R100). -/
def selOf (f : Nat) : CregSel := ⟨modeOf (f / 8 % 4), cregOf (f % 8)⟩

/-- The ORD instruction of an ID and its fields a, b (R101). -/
def decodeOrd (id a b : Nat) : Except DecodeReject Instr :=
  match id with
  | 0x01 => .ok (.mov (regOf a) (regOf b))
  | 0x02 => .ok (.mtc (selOf a) (regOf b))
  | 0x03 => .ok (.mfc (regOf a) (selOf b))
  | 0x04 => .ok (.str (regOf a) (regOf b))
  | 0x05 => .ok (.psh (regOf a) (regOf b))
  | 0x06 => .ok (.loa (regOf a) (regOf b))
  | 0x07 => .ok (.pop (regOf a) (regOf b))
  | 0x08 => .ok (.mom (regOf a) (regOf b))
  | 0x09 => .ok (.srl (regOf a) (regOf b))
  | 0x10 => .ok (.add (regOf a) (regOf b))
  | 0x11 => .ok (.adx (regOf a) (regOf b))
  | 0x12 => .ok (.sub (regOf a) (regOf b))
  | 0x13 => .ok (.sbx (regOf a) (regOf b))
  | 0x14 => .ok (.mul (regOf a) (regOf b))
  | 0x15 => .ok (.mli (regOf a) (regOf b))
  | 0x16 => .ok (.div (regOf a) (regOf b))
  | 0x17 => .ok (.dvi (regOf a) (regOf b))
  | 0x18 => .ok (.mod (regOf a) (regOf b))
  | 0x19 => .ok (.mdi (regOf a) (regOf b))
  | 0x1a => .ok (.inc (regOf a) (signed5 b))
  | 0x1b => .ok (.gbs (regOf a) (regOf b))
  | 0x20 => .ok (.and (regOf a) (regOf b))
  | 0x21 => .ok (.ior (regOf a) (regOf b))
  | 0x22 => .ok (.xor (regOf a) (regOf b))
  | 0x23 => .ok (.bic (regOf a) (regOf b))
  | 0x24 => .ok (.shl (regOf a) (regOf b))
  | 0x25 => .ok (.asr (regOf a) (regOf b))
  | 0x26 => .ok (.shr (regOf a) (regOf b))
  | 0x27 => .ok (.rol (regOf a) (regOf b))
  | 0x28 => .ok (.ror (regOf a) (regOf b))
  | 0x29 => .ok (.tst (regOf a) (regOf b))
  | 0x2a => .ok (.teq (regOf a) (regOf b))
  | 0x2b => .ok (.cmp (regOf a) (regOf b))
  | 0x2c => .ok (.cmn (regOf a) (regOf b))
  | _ => .error (.unassignedOrd id)

/-- The UNA instruction of an ID and its operand c (R102). -/
def decodeUna (id c : Nat) : Except DecodeReject Instr :=
  match id with
  | 0x30 => .ok (.jmp (signed10 c))
  | 0x31 => .ok (.jlt (signed10 c))
  | 0x32 => .ok (.jle (signed10 c))
  | 0x33 => .ok (.jgt (signed10 c))
  | 0x34 => .ok (.jge (signed10 c))
  | 0x35 => .ok (.jeq (signed10 c))
  | 0x36 => .ok (.jne (signed10 c))
  | 0x3b => .ok (.swi c)
  | 0x3c => .ok (.hwi c)
  | 0x3d => .ok (.ire c)
  | _ => .error (.unassignedUna id)

/-- The IMP instruction of an ID, its field a and its second word n (R103). -/
def decodeImp (id a : Nat) (n : Word) : Except DecodeReject Instr :=
  match id with
  | 0x00 => .ok (.impBrk (regOf a) n)
  | 0x01 => .ok (.impMov (regOf a) n)
  | 0x02 => .ok (.impMtc (selOf a) n)
  | 0x03 => .ok (.impStr (regOf a) n)
  | 0x04 => .ok (.impPsh (regOf a) n)
  | 0x05 => .ok (.impSrl (regOf a) n)
  | 0x08 => .ok (.impAdd (regOf a) n)
  | 0x09 => .ok (.impAdx (regOf a) n)
  | 0x0a => .ok (.impSub (regOf a) n)
  | 0x0b => .ok (.impSbx (regOf a) n)
  | 0x0c => .ok (.impMul (regOf a) n)
  | 0x0d => .ok (.impMli (regOf a) n)
  | 0x0e => .ok (.impDiv (regOf a) n)
  | 0x0f => .ok (.impDvi (regOf a) n)
  | 0x10 => .ok (.impMod (regOf a) n)
  | 0x11 => .ok (.impMdi (regOf a) n)
  | 0x12 => .ok (.impInc (regOf a) n)
  | 0x13 => .ok (.impAnd (regOf a) n)
  | 0x14 => .ok (.impIor (regOf a) n)
  | 0x15 => .ok (.impXor (regOf a) n)
  | 0x16 => .ok (.impBic (regOf a) n)
  | 0x17 => .ok (.impShl (regOf a) n)
  | 0x18 => .ok (.impAsr (regOf a) n)
  | 0x19 => .ok (.impShr (regOf a) n)
  | 0x1a => .ok (.impRol (regOf a) n)
  | 0x1b => .ok (.impRor (regOf a) n)
  | 0x1c => .ok (.impTst (regOf a) n)
  | 0x1d => .ok (.impTeq (regOf a) n)
  | 0x1e => .ok (.impCmp (regOf a) n)
  | 0x1f => .ok (.impCmn (regOf a) n)
  | _ => .error (.unassignedImp id)

/-- The decoder of R95: `w` is the first word, `n` the second, which only IMP uses. -/
def decode (w n : Word) : Except DecodeReject Instr :=
  if opcodeOf w = 0 then decodeImp (midField w) (highField w) n
  else if opcodeOf w / 16 = 3 then decodeUna (opcodeOf w) (unaField w)
  else decodeOrd (opcodeOf w) (midField w) (highField w)

/-- The length of an instruction in words, known from its first word (R90). -/
def wordsNeeded (w : Word) : Nat := if opcodeOf w = 0 then 2 else 1

/-- Decode the first instruction of a list of words, and give the words after it (R90, R95). -/
def decodeWords : List Word → Except DecodeReject (Instr × List Word)
  | [] => .error .truncated
  | w :: rest =>
    if opcodeOf w = 0 then
      match rest with
      | [] => .error .truncated
      | n :: rest' => (decode w n).map (fun i => (i, rest'))
    else (decode w 0).map (fun i => (i, rest))

/-! The encoder, from the same tables. -/

/-- `(b << 11) | (a << 6) | ID` (R92). -/
def ordWord (id a b : Nat) : Word := BitVec.ofNat 16 (b * 2048 + a * 64 + id)

/-- `(c << 6) | ID` (R93). -/
def unaWord (id c : Nat) : Word := BitVec.ofNat 16 (c * 64 + id)

/-- The first word of IMP, `(a << 11) | (ID << 6)` (R94). -/
def impWord (id a : Nat) : Word := BitVec.ofNat 16 (a * 2048 + id * 64)

/-- The low five bits of an immediate (R96). -/
def field5 (imm : Int) : Nat := (imm % 32).toNat

/-- The low ten bits of an offset (R97). -/
def field10 (off : Int) : Nat := (off % 1024).toNat

/-- The index of a control register (R26). -/
def cregIndex : Creg → Nat
  | .pc => 0
  | .ex => 1
  | .c2 => 2
  | .c3 => 3
  | .ia => 4
  | .im => 5
  | .ir => 6
  | .fl => 7

/-- The code of an access mode (R100). -/
def modeCode : AccessMode → Nat
  | .set => 0
  | .and => 1
  | .ior => 2
  | .xor => 3

/-- The 5-bit field of a k operand (R100). -/
def selField (k : CregSel) : Nat := modeCode k.mode * 8 + cregIndex k.idx

/-- The words of a well-formed instruction (R92 to R94, R101 to R103). -/
def encode : Instr → List Word
  | .mov a b => [ordWord 0x01 a.val b.val]
  | .mtc k b => [ordWord 0x02 (selField k) b.val]
  | .mfc a k => [ordWord 0x03 a.val (selField k)]
  | .str a b => [ordWord 0x04 a.val b.val]
  | .psh a b => [ordWord 0x05 a.val b.val]
  | .loa a b => [ordWord 0x06 a.val b.val]
  | .pop a b => [ordWord 0x07 a.val b.val]
  | .mom a b => [ordWord 0x08 a.val b.val]
  | .srl a b => [ordWord 0x09 a.val b.val]
  | .add a b => [ordWord 0x10 a.val b.val]
  | .adx a b => [ordWord 0x11 a.val b.val]
  | .sub a b => [ordWord 0x12 a.val b.val]
  | .sbx a b => [ordWord 0x13 a.val b.val]
  | .mul a b => [ordWord 0x14 a.val b.val]
  | .mli a b => [ordWord 0x15 a.val b.val]
  | .div a b => [ordWord 0x16 a.val b.val]
  | .dvi a b => [ordWord 0x17 a.val b.val]
  | .mod a b => [ordWord 0x18 a.val b.val]
  | .mdi a b => [ordWord 0x19 a.val b.val]
  | .inc a imm => [ordWord 0x1a a.val (field5 imm)]
  | .gbs a b => [ordWord 0x1b a.val b.val]
  | .and a b => [ordWord 0x20 a.val b.val]
  | .ior a b => [ordWord 0x21 a.val b.val]
  | .xor a b => [ordWord 0x22 a.val b.val]
  | .bic a b => [ordWord 0x23 a.val b.val]
  | .shl a b => [ordWord 0x24 a.val b.val]
  | .asr a b => [ordWord 0x25 a.val b.val]
  | .shr a b => [ordWord 0x26 a.val b.val]
  | .rol a b => [ordWord 0x27 a.val b.val]
  | .ror a b => [ordWord 0x28 a.val b.val]
  | .tst a b => [ordWord 0x29 a.val b.val]
  | .teq a b => [ordWord 0x2a a.val b.val]
  | .cmp a b => [ordWord 0x2b a.val b.val]
  | .cmn a b => [ordWord 0x2c a.val b.val]
  | .jmp off => [unaWord 0x30 (field10 off)]
  | .jlt off => [unaWord 0x31 (field10 off)]
  | .jle off => [unaWord 0x32 (field10 off)]
  | .jgt off => [unaWord 0x33 (field10 off)]
  | .jge off => [unaWord 0x34 (field10 off)]
  | .jeq off => [unaWord 0x35 (field10 off)]
  | .jne off => [unaWord 0x36 (field10 off)]
  | .swi c => [unaWord 0x3b c]
  | .hwi c => [unaWord 0x3c c]
  | .ire c => [unaWord 0x3d c]
  | .impBrk a n => [impWord 0x00 a.val, n]
  | .impMov a n => [impWord 0x01 a.val, n]
  | .impMtc k n => [impWord 0x02 (selField k), n]
  | .impStr a n => [impWord 0x03 a.val, n]
  | .impPsh a n => [impWord 0x04 a.val, n]
  | .impSrl a n => [impWord 0x05 a.val, n]
  | .impAdd a n => [impWord 0x08 a.val, n]
  | .impAdx a n => [impWord 0x09 a.val, n]
  | .impSub a n => [impWord 0x0a a.val, n]
  | .impSbx a n => [impWord 0x0b a.val, n]
  | .impMul a n => [impWord 0x0c a.val, n]
  | .impMli a n => [impWord 0x0d a.val, n]
  | .impDiv a n => [impWord 0x0e a.val, n]
  | .impDvi a n => [impWord 0x0f a.val, n]
  | .impMod a n => [impWord 0x10 a.val, n]
  | .impMdi a n => [impWord 0x11 a.val, n]
  | .impInc a n => [impWord 0x12 a.val, n]
  | .impAnd a n => [impWord 0x13 a.val, n]
  | .impIor a n => [impWord 0x14 a.val, n]
  | .impXor a n => [impWord 0x15 a.val, n]
  | .impBic a n => [impWord 0x16 a.val, n]
  | .impShl a n => [impWord 0x17 a.val, n]
  | .impAsr a n => [impWord 0x18 a.val, n]
  | .impShr a n => [impWord 0x19 a.val, n]
  | .impRol a n => [impWord 0x1a a.val, n]
  | .impRor a n => [impWord 0x1b a.val, n]
  | .impTst a n => [impWord 0x1c a.val, n]
  | .impTeq a n => [impWord 0x1d a.val, n]
  | .impCmp a n => [impWord 0x1e a.val, n]
  | .impCmn a n => [impWord 0x1f a.val, n]

/-! The opcode table (R104). -/

/-- A row of the opcode table: the instruction is this one when the first word under `mask` is `bits`. -/
structure OpcodeRow where
  mnemonic : String
  bits     : Nat
  mask     : Nat
  words    : Nat
deriving DecidableEq, Repr

/-- The 74 rows of spec/opcode_table.json (R104). -/
def opcodeTable : List OpcodeRow := [
  ⟨"mov", 0x0001, 0x003f, 1⟩,
  ⟨"mtc", 0x0002, 0x003f, 1⟩,
  ⟨"mfc", 0x0003, 0x003f, 1⟩,
  ⟨"str", 0x0004, 0x003f, 1⟩,
  ⟨"psh", 0x0005, 0x003f, 1⟩,
  ⟨"loa", 0x0006, 0x003f, 1⟩,
  ⟨"pop", 0x0007, 0x003f, 1⟩,
  ⟨"mom", 0x0008, 0x003f, 1⟩,
  ⟨"srl", 0x0009, 0x003f, 1⟩,
  ⟨"add", 0x0010, 0x003f, 1⟩,
  ⟨"adx", 0x0011, 0x003f, 1⟩,
  ⟨"sub", 0x0012, 0x003f, 1⟩,
  ⟨"sbx", 0x0013, 0x003f, 1⟩,
  ⟨"mul", 0x0014, 0x003f, 1⟩,
  ⟨"mli", 0x0015, 0x003f, 1⟩,
  ⟨"div", 0x0016, 0x003f, 1⟩,
  ⟨"dvi", 0x0017, 0x003f, 1⟩,
  ⟨"mod", 0x0018, 0x003f, 1⟩,
  ⟨"mdi", 0x0019, 0x003f, 1⟩,
  ⟨"inc", 0x001a, 0x003f, 1⟩,
  ⟨"gbs", 0x001b, 0x003f, 1⟩,
  ⟨"and", 0x0020, 0x003f, 1⟩,
  ⟨"ior", 0x0021, 0x003f, 1⟩,
  ⟨"xor", 0x0022, 0x003f, 1⟩,
  ⟨"bic", 0x0023, 0x003f, 1⟩,
  ⟨"shl", 0x0024, 0x003f, 1⟩,
  ⟨"asr", 0x0025, 0x003f, 1⟩,
  ⟨"shr", 0x0026, 0x003f, 1⟩,
  ⟨"rol", 0x0027, 0x003f, 1⟩,
  ⟨"ror", 0x0028, 0x003f, 1⟩,
  ⟨"tst", 0x0029, 0x003f, 1⟩,
  ⟨"teq", 0x002a, 0x003f, 1⟩,
  ⟨"cmp", 0x002b, 0x003f, 1⟩,
  ⟨"cmn", 0x002c, 0x003f, 1⟩,
  ⟨"jmp", 0x0030, 0x003f, 1⟩,
  ⟨"jlt", 0x0031, 0x003f, 1⟩,
  ⟨"jle", 0x0032, 0x003f, 1⟩,
  ⟨"jgt", 0x0033, 0x003f, 1⟩,
  ⟨"jge", 0x0034, 0x003f, 1⟩,
  ⟨"jeq", 0x0035, 0x003f, 1⟩,
  ⟨"jne", 0x0036, 0x003f, 1⟩,
  ⟨"swi", 0x003b, 0x003f, 1⟩,
  ⟨"hwi", 0x003c, 0x003f, 1⟩,
  ⟨"ire", 0x003d, 0x003f, 1⟩,
  ⟨"imp_brk", 0x0000, 0x07ff, 2⟩,
  ⟨"imp_mov", 0x0040, 0x07ff, 2⟩,
  ⟨"imp_mtc", 0x0080, 0x07ff, 2⟩,
  ⟨"imp_str", 0x00c0, 0x07ff, 2⟩,
  ⟨"imp_psh", 0x0100, 0x07ff, 2⟩,
  ⟨"imp_srl", 0x0140, 0x07ff, 2⟩,
  ⟨"imp_add", 0x0200, 0x07ff, 2⟩,
  ⟨"imp_adx", 0x0240, 0x07ff, 2⟩,
  ⟨"imp_sub", 0x0280, 0x07ff, 2⟩,
  ⟨"imp_sbx", 0x02c0, 0x07ff, 2⟩,
  ⟨"imp_mul", 0x0300, 0x07ff, 2⟩,
  ⟨"imp_mli", 0x0340, 0x07ff, 2⟩,
  ⟨"imp_div", 0x0380, 0x07ff, 2⟩,
  ⟨"imp_dvi", 0x03c0, 0x07ff, 2⟩,
  ⟨"imp_mod", 0x0400, 0x07ff, 2⟩,
  ⟨"imp_mdi", 0x0440, 0x07ff, 2⟩,
  ⟨"imp_inc", 0x0480, 0x07ff, 2⟩,
  ⟨"imp_and", 0x04c0, 0x07ff, 2⟩,
  ⟨"imp_ior", 0x0500, 0x07ff, 2⟩,
  ⟨"imp_xor", 0x0540, 0x07ff, 2⟩,
  ⟨"imp_bic", 0x0580, 0x07ff, 2⟩,
  ⟨"imp_shl", 0x05c0, 0x07ff, 2⟩,
  ⟨"imp_asr", 0x0600, 0x07ff, 2⟩,
  ⟨"imp_shr", 0x0640, 0x07ff, 2⟩,
  ⟨"imp_rol", 0x0680, 0x07ff, 2⟩,
  ⟨"imp_ror", 0x06c0, 0x07ff, 2⟩,
  ⟨"imp_tst", 0x0700, 0x07ff, 2⟩,
  ⟨"imp_teq", 0x0740, 0x07ff, 2⟩,
  ⟨"imp_cmp", 0x0780, 0x07ff, 2⟩,
  ⟨"imp_cmn", 0x07c0, 0x07ff, 2⟩]

/-- The row's name for an instruction. -/
def Instr.mnemonic : Instr → String
  | .mov _ _ => "mov"
  | .mtc _ _ => "mtc"
  | .mfc _ _ => "mfc"
  | .str _ _ => "str"
  | .psh _ _ => "psh"
  | .loa _ _ => "loa"
  | .pop _ _ => "pop"
  | .mom _ _ => "mom"
  | .srl _ _ => "srl"
  | .add _ _ => "add"
  | .adx _ _ => "adx"
  | .sub _ _ => "sub"
  | .sbx _ _ => "sbx"
  | .mul _ _ => "mul"
  | .mli _ _ => "mli"
  | .div _ _ => "div"
  | .dvi _ _ => "dvi"
  | .mod _ _ => "mod"
  | .mdi _ _ => "mdi"
  | .inc _ _ => "inc"
  | .gbs _ _ => "gbs"
  | .and _ _ => "and"
  | .ior _ _ => "ior"
  | .xor _ _ => "xor"
  | .bic _ _ => "bic"
  | .shl _ _ => "shl"
  | .asr _ _ => "asr"
  | .shr _ _ => "shr"
  | .rol _ _ => "rol"
  | .ror _ _ => "ror"
  | .tst _ _ => "tst"
  | .teq _ _ => "teq"
  | .cmp _ _ => "cmp"
  | .cmn _ _ => "cmn"
  | .jmp _ => "jmp"
  | .jlt _ => "jlt"
  | .jle _ => "jle"
  | .jgt _ => "jgt"
  | .jge _ => "jge"
  | .jeq _ => "jeq"
  | .jne _ => "jne"
  | .swi _ => "swi"
  | .hwi _ => "hwi"
  | .ire _ => "ire"
  | .impBrk _ _ => "imp_brk"
  | .impMov _ _ => "imp_mov"
  | .impMtc _ _ => "imp_mtc"
  | .impStr _ _ => "imp_str"
  | .impPsh _ _ => "imp_psh"
  | .impSrl _ _ => "imp_srl"
  | .impAdd _ _ => "imp_add"
  | .impAdx _ _ => "imp_adx"
  | .impSub _ _ => "imp_sub"
  | .impSbx _ _ => "imp_sbx"
  | .impMul _ _ => "imp_mul"
  | .impMli _ _ => "imp_mli"
  | .impDiv _ _ => "imp_div"
  | .impDvi _ _ => "imp_dvi"
  | .impMod _ _ => "imp_mod"
  | .impMdi _ _ => "imp_mdi"
  | .impInc _ _ => "imp_inc"
  | .impAnd _ _ => "imp_and"
  | .impIor _ _ => "imp_ior"
  | .impXor _ _ => "imp_xor"
  | .impBic _ _ => "imp_bic"
  | .impShl _ _ => "imp_shl"
  | .impAsr _ _ => "imp_asr"
  | .impShr _ _ => "imp_shr"
  | .impRol _ _ => "imp_rol"
  | .impRor _ _ => "imp_ror"
  | .impTst _ _ => "imp_tst"
  | .impTeq _ _ => "imp_teq"
  | .impCmp _ _ => "imp_cmp"
  | .impCmn _ _ => "imp_cmn"

/-- A first word belongs to a row (R104). -/
def OpcodeRow.covers (r : OpcodeRow) (w : Word) : Bool := w.toNat &&& r.mask == r.bits

/-! The octet view (R62, `OCTET_ORDER`). -/

/-- The octets of a word, the one at the lower octet offset first. -/
def wordOctets (order : OctetOrder) (w : Word) : Byte × Byte :=
  match order with
  | .msFirst => (w.extractLsb' 8 8, w.extractLsb' 0 8)
  | .lsFirst => (w.extractLsb' 0 8, w.extractLsb' 8 8)

/-- The word of two octets, `x` at the lower octet offset. -/
def octetsWord (order : OctetOrder) (x y : Byte) : Word :=
  match order with
  | .msFirst => x ++ y
  | .lsFirst => y ++ x

/-- The words of a sequence of octets; an odd octet at the end belongs to no word. -/
def wordsOfOctets (bytes : List Byte) (order : OctetOrder := Machine.params.octetOrder) : List Word :=
  match bytes with
  | x :: y :: rest => octetsWord order x y :: wordsOfOctets rest order
  | _ => []

/-- The octets of a sequence of words, as memory holds them. -/
def octetsOfWords (words : List Word) (order : OctetOrder := Machine.params.octetOrder) : List Byte :=
  match words with
  | [] => []
  | w :: rest => (wordOctets order w).1 :: (wordOctets order w).2 :: octetsOfWords rest order

/-- The decoder on octets: total on any list of them. -/
def decodeOctets (bytes : List Byte) (order : OctetOrder := Machine.params.octetOrder) :
    Except DecodeReject (Instr × List Word) :=
  decodeWords (wordsOfOctets bytes order)

/-- The two words of a table word: bit 0 is the least significant bit of the first word, the second
word's bits count on from bit 16, and every bit from `nbits` up is 0. -/
def tableWords (nbits w : Nat) : Word × Word :=
  (BitVec.ofNat 16 (w % 2 ^ nbits), BitVec.ofNat 16 (w % 2 ^ nbits / 65536))

/-- The instruction the decoder reads from a word of the opcode table, laid out in octets as memory
holds it. -/
def decodeTableWord (nbits w : Nat) : Option Instr :=
  match decodeOctets (octetsOfWords [(tableWords nbits w).1, (tableWords nbits w).2]) with
  | .ok (i, _) => some i
  | .error _ => none

end Sys2Proof
end

