-- ==== Sys2Proof/Machine/Flags.lean ====
section
/-! DEFINITION. The bits of FL (R33) and the conditions the jumps read in EX (R270). There are no other
flags: the machine has no carry, zero, negative or overflow bit (R38). -/

namespace Sys2Proof.Machine

/-- FL.I, bit 15: "external interrupts are ignored if set" (R34). -/
def flI : Word := 0x8000#16

/-- FL.H, bit 14: "set on hardware interrupt" (R35). -/
def flH : Word := 0x4000#16

/-- FL.S, bit 0: "supervisor mode enabled if set" (R36). -/
def flS : Word := 0x0001#16

/-- FL with the bits of a mask set. -/
def flSet (fl mask : Word) : Word := fl ||| mask

/-- FL with the bits of a mask cleared. -/
def flClear (fl mask : Word) : Word := fl &&& ~~~mask

/-- What a write of `v` leaves in FL (R136, R37, `FL_RESERVED`; log 12). DESIGN CHOICE: `readZero` masks a
write only; what RESET_FL puts in bits 13 to 1 is not masked, and reads as it stands until FL is written. -/
def flWritten (p : FlReserved) (v : Word) : Word :=
  match p with
  | .storage => v
  | .readZero => v &&& 0xc001#16

/-- `EX < 0` (R264), EX as a two's-complement number (R270). -/
def exLt (ex : Word) : Bool := decide (ex.toInt < 0)

/-- `EX <= 0` (R265). -/
def exLe (ex : Word) : Bool := decide (ex.toInt ≤ 0)

/-- `EX > 0` (R266). -/
def exGt (ex : Word) : Bool := decide (0 < ex.toInt)

/-- `EX >= 0` (R267). -/
def exGe (ex : Word) : Bool := decide (0 ≤ ex.toInt)

/-- `EX == 0` (R268). -/
def exEq (ex : Word) : Bool := decide (ex = 0#16)

/-- `EX != 0` (R269). -/
def exNe (ex : Word) : Bool := decide (ex ≠ 0#16)

end Sys2Proof.Machine
end

