-- ==== Sys2Proof/Machine/State.lean ====
section
/-! DEFINITION. The machine's state (R20 to R45) as plain data, the ways a step can stop, and the state
after reset (R44). -/

namespace Sys2Proof.Machine

/-- Why the machine stops with a fault. -/
inductive Fault where
  /-- Raised by `step` when the word at PC holds a code without a table row (R105, D24): no interrupt
  and no no-op. Safe: nothing is proved through it. -/
  | unassignedOpcode (w : Word)
  /-- Raised by `step` when the environment's reaction to an `hwi` event stops the machine (R283, R332).
  Safe: only a state whose reaction script says so reaches it. -/
  | platformStop
deriving DecidableEq, Repr

/-- Why an instruction has no meaning. -/
inductive Refusal where
  /-- Raised by an arm of `exec` that has no meaning yet. Safe: nothing is proved through it. -/
  | notModelled (mnemonic : String)
  /-- Raised by the step on an access to a region of `PLATFORM_MAP` (R71, D34): the spec does not say what
  such a region does (log 32). Safe: nothing is proved through it. The default map has no region. -/
  | platformRegion (a : Word)
  /-- Raised by the step at a code without a table row when `UNASSIGNED_OP` is `refuse` (R105, log 11). Safe:
  nothing is proved through it. -/
  | unassignedCode (w : Word)
deriving DecidableEq, Repr

/-- An event HWI(m): its message and its position in program order (R283). -/
structure HwiEvent where
  message  : Word
  position : Nat
deriving DecidableEq, Repr

/-- One act of the platform's reaction to an `hwi` event (R283, D30). Which acts there are, and what a write of a
control register reaches, is the model's choice (`performAct`, log 9). -/
inductive PlatformAct where
  | writeReg (r : Reg) (v : Word)
  | writeCreg (c : Creg) (v : Word)
  | writeMem (a v : Word)
  | request (m : Word)
  | stop
deriving DecidableEq, Repr

/-- Memory as octets by octet address, in the canonical form of `Memory.wf`: word A lies at octets
2A and 2A + 1 (R61, R62; log 1). -/
abbrev Memory := List Host.Cell

/-- The state of the core (R20 to R42) and, below it, the environment's side of the machine and the
model's own counters. -/
structure State where
  /-- r1 to r31 (R21); r0 is hard-wired and has no storage (R22). -/
  regs : Vector Word 31
  /-- c0, "Points to the next instruction" (R27). -/
  pc : Word
  /-- c1, "extra" (R29). -/
  ex : Word
  /-- c2, reserved (R30). -/
  c2 : Word
  /-- c3, reserved (R30). -/
  c3 : Word
  /-- c4, "Points to the interrupt handler" (R31). -/
  ia : Word
  /-- c5, "Contains current interrupt message" (R32). -/
  im : Word
  /-- c6, "Contains return address for interrupt handler" (R32). -/
  ir : Word
  /-- c7, flags I, H, S and the bits without meaning (R33). -/
  fl : Word
  /-- The 0x10000 words of memory (R41). -/
  mem : Memory
  /-- The environment's requests, one entry a step from the next one on (R42, R303; log 8). -/
  requests : List (Option Word)
  /-- The platform's reactions to the coming `hwi` events; none left means no reaction (R283, D30; log 9). -/
  hwiReactions : List (List PlatformAct)
  /-- The events emitted so far, oldest first (R283). -/
  hwiEvents : List HwiEvent
  /-- The model's own: instructions fetched so far, the position of an event (log 28). -/
  instrCount : Nat
  /-- The model's own: free values drawn so far (log 6). -/
  draws : Nat
deriving DecidableEq, Repr

/-- The outcome of a step or a meaning. -/
abbrev Out := Host.Outcome State Fault Refusal

/-- The machine right after reset under a configuration (R44, D32): an environment that requests nothing
and does not react (logs 8, 9), and the model's counters at 0 (logs 6, 28). DESIGN CHOICE (log 12): FL takes
`RESET_FL` unmasked, bits 13 to 1 included, also where `FL_RESERVED` is `readZero`. -/
def State.resetWith (p : Config) : State where
  regs := p.resetRegs
  pc := p.resetPc
  ex := p.resetEx
  c2 := p.resetC2
  c3 := p.resetC3
  ia := p.resetIa
  im := p.resetIm
  ir := p.resetIr
  fl := p.resetFl
  mem := p.resetMem
  requests := []
  hwiReactions := []
  hwiEvents := []
  instrCount := 0
  draws := 0

/-- The machine right after reset (R44): PC and FL as the spec's defaults say (log 5), every register
the spec leaves unspecified at 0 (logs 3, 4), memory with nothing listed (log 2). -/
def State.reset : State := State.resetWith params

end Sys2Proof.Machine
end

