-- ==== Sys2Proof/Machine/Ops.lean ====
section
/-! DEFINITION. The named operations over memory, registers and control registers, interrupt entry
(R305) and return (R310), and the `hwi` event (R283). -/

namespace Sys2Proof.Machine

/-! Memory (R60 to R72). -/

/-- What an octet that memory does not list reads as (log 2: DESIGN CHOICE, the spec gives no value). -/
def unlistedOctet : Byte := 0x00#8

/-- The octet at an octet address. -/
def Memory.octet : Memory → Nat → Byte
  | [], _ => unlistedOctet
  | (k, x) :: rest, a => if k = a then x else Memory.octet rest a

/-- Memory without an entry at an octet address. -/
def Memory.erase : Memory → Nat → Memory
  | [], _ => []
  | (k, x) :: rest, a => if k = a then Memory.erase rest a else (k, x) :: Memory.erase rest a

/-- Memory with an octet listed at an octet address, the addresses kept rising. -/
def Memory.insert : Memory → Nat → Byte → Memory
  | [], a, v => [(a, v)]
  | (k, x) :: rest, a, v =>
    if a < k then (a, v) :: (k, x) :: rest
    else if a = k then (a, v) :: rest
    else (k, x) :: Memory.insert rest a v

/-- Store an octet, keeping the canonical form: an octet equal to what an unlisted one reads as is not
listed. -/
def Memory.put (m : Memory) (a : Nat) (v : Byte) : Memory :=
  if v = unlistedOctet then Memory.erase m a else Memory.insert m a v

/-- Every entry lies at or above `lo` and inside the 0x20000 octets, the addresses strictly rise, and no
entry is what an unlisted octet reads as. -/
def Memory.wfFrom : Nat → Memory → Bool
  | _, [] => true
  | lo, (k, x) :: rest =>
    decide (lo ≤ k) && decide (k < 0x20000) && decide (x ≠ unlistedOctet) && Memory.wfFrom (k + 1) rest

/-- The canonical form of memory. -/
def Memory.wf (m : Memory) : Bool := Memory.wfFrom 0 m

/-- The octet address of the octet at the lower offset of word `a` (R62). -/
def octetAddr (a : Word) : Nat := 2 * a.toNat

/-- `MemRead(a, 1)` (R64) on memory alone. -/
def Memory.word (m : Memory) (a : Word) (order : OctetOrder := params.octetOrder) : Word :=
  octetsWord order (Memory.octet m (octetAddr a)) (Memory.octet m (octetAddr a + 1))

/-- `MemWrite(a, 1, v)` (R65) on memory alone. -/
def Memory.putWord (m : Memory) (a v : Word) (order : OctetOrder := params.octetOrder) : Memory :=
  Memory.put (Memory.put m (octetAddr a) (wordOctets order v).1) (octetAddr a + 1) (wordOctets order v).2

/-- `MemRead(a, 1)`: no side effect, never fails (R64). -/
def State.load (s : State) (a : Word) (p : Config := params) : Word := Memory.word s.mem a p.octetOrder

/-- `MemWrite(a, 1, v)`: never fails (R65). -/
def State.store (s : State) (a v : Word) (p : Config := params) : State :=
  { s with mem := Memory.putWord s.mem a v p.octetOrder }

/-! General registers (R21, R22). -/

/-- `x[r]`; r0 reads 0x0000 (R22). -/
def State.reg (s : State) (r : Reg) : Word :=
  if r.val = 0 then 0#16 else s.regs[r.val - 1]'(by have := r.isLt; omega)

/-- `x[r] <- v`; a write to r0 is discarded (R22). -/
def State.setReg (s : State) (r : Reg) (v : Word) : State :=
  { s with regs := if r.val = 0 then s.regs else s.regs.set (r.val - 1) v (by have := r.isLt; omega) }

/-! Control registers (R26 to R39). -/

/-- What a control register's field holds. For c2 and c3 no instruction delivers it: see `readCreg`. -/
def State.held (s : State) : Creg → Word
  | .pc => s.pc
  | .ex => s.ex
  | .c2 => s.c2
  | .c3 => s.c3
  | .ia => s.ia
  | .im => s.im
  | .ir => s.ir
  | .fl => s.fl

/-- `PC <- v`. -/
def State.setPc (s : State) (v : Word) : State := { s with pc := v }

/-- `EX <- v`. -/
def State.setEx (s : State) (v : Word) : State := { s with ex := v }

/-- One more free value has been drawn (log 6). -/
def State.drawn (s : State) : State := { s with draws := s.draws + 1 }

/-- What a read of a control register delivers: a defined register its content, a reserved one an
unspecified value (R30, `CREG_RESERVED`; log 4). FL is read unmasked under either `FL_RESERVED` (log 12). -/
def State.readCreg (s : State) (c : Creg) (p : Config := params) : Word :=
  match c with
  | .c2 => p.reservedRead s.draws s.c2
  | .c3 => p.reservedRead s.draws s.c3
  | c => s.held c

/-- The state after a read of a control register: a read of a reserved one draws a free value. -/
def State.afterRead (s : State) : Creg → State
  | .c2 => s.drawn
  | .c3 => s.drawn
  | _ => s

/-- `c[j] <- v` (R136): a write of a reserved register changes nothing (R30). -/
def State.setCreg (s : State) (c : Creg) (v : Word) (p : Config := params) : State :=
  match c with
  | .pc => { s with pc := v }
  | .ex => { s with ex := v }
  | .c2 => s
  | .c3 => s
  | .ia => { s with ia := v }
  | .im => { s with im := v }
  | .ir => { s with ir := v }
  | .fl => { s with fl := flWritten p.flReserved v }

/-- FL.I (R34). -/
def State.ignoring (s : State) : Bool := s.fl.getLsbD 15

/-- FL.H (R35). -/
def State.hwMark (s : State) : Bool := s.fl.getLsbD 14

/-- FL.S, supervisor mode (R36). -/
def State.supervisor (s : State) : Bool := s.fl.getLsbD 0

/-! Interrupts (R300 to R313). -/

/-- The kinds of interrupt (R300). -/
inductive IntKind where
  | software
  | brk
  | hardware
deriving DecidableEq, Repr

/-- FL on interrupt entry: I and S set, and H for a hardware interrupt (R305, R306). -/
def entryFl (kind : IntKind) (fl : Word) : Word :=
  match kind with
  | .hardware => flSet (flSet (flSet fl flI) flS) flH
  | .software => flSet (flSet fl flI) flS
  | .brk => flSet (flSet fl flI) flS

/-- Interrupt entry, `raise Interrupt(kind, m)` (R305): IR takes PC, PC takes IA, IM takes the message,
and FL changes as `entryFl` says; nothing else changes. -/
def raiseInterrupt (kind : IntKind) (m : Word) (s : State) : State :=
  { s with ir := s.pc, pc := s.ia, im := m, fl := entryFl kind s.fl }

/-- FL on interrupt return: I cleared, and S too when the return is to user mode (R310). -/
def returnFl (toUser : Bool) (fl : Word) : Word :=
  if toUser then flClear (flClear fl flI) flS else flClear fl flI

/-- Interrupt return (R284, R310): PC takes IR and FL changes as `returnFl` says; nothing else changes. -/
def returnFromInterrupt (toUser : Bool) (s : State) : State :=
  { s with pc := s.ir, fl := returnFl toUser s.fl }

/-- `emit HWI(m)` (R283): the event joins the history with its position in program order. -/
def emitHwi (m : Word) (s : State) : State :=
  { s with hwiEvents := s.hwiEvents ++ [⟨m, s.instrCount⟩] }

end Sys2Proof.Machine
end

