-- ==== Sys2Proof/Machine/Environment.lean ====
section
/-! DEFINITION. The environment agent (R303, R333): the external interrupt requests it presents
(`PLATFORM_IRQ`, R301, R304) and its reactions to `hwi` events (`PLATFORM_HWI`, R283, R332). -/

namespace Sys2Proof.Machine

/-- The request presented at this step, if any (R303). -/
def presentedRequest (s : State) : Option Word :=
  match s.requests with
  | [] => none
  | r :: _ => r

/-- The request the core takes at this step: none while FL.I is set (R301, R304). -/
def acceptedRequest (s : State) : Option Word := if s.ignoring then none else presentedRequest s

/-- The step's entry of the schedule is used up, whether the request was taken or not: the core keeps no
pending request (R304, D27). -/
def consumeRequest (s : State) : State := { s with requests := s.requests.tail }

/-- One act of a reaction; none when it stops the machine (R283). A requested interrupt is presented at
the next step. DESIGN CHOICE (log 9; R283 leaves the platform's relation open), unsafe: a control register
is written as `mtc` writes it, so no reaction changes c2 or c3, nor sets one of FL bits 13 to 1 where
`FL_RESERVED` is `readZero`. -/
def performAct (s : State) (act : PlatformAct) (p : Config := params) : Option State :=
  match act with
  | .writeReg r v => some (s.setReg r v)
  | .writeCreg c v => some (s.setCreg c v p)
  | .writeMem a v => some (s.store a v p)
  | .request m => some { s with requests := some m :: s.requests }
  | .stop => none

/-- The acts of a reaction in order; none when one of them stops the machine. -/
def performActs (s : State) (acts : List PlatformAct) (p : Config := params) : Option State :=
  match acts with
  | [] => some s
  | act :: rest =>
    match performAct s act p with
    | none => none
    | some t => performActs t rest p

/-- The platform's reaction to one event: the next one of the script, or none at all (D30's default). -/
def platformReact (s : State) (p : Config := params) : Option State :=
  match s.hwiReactions with
  | [] => some s
  | acts :: rest => performActs { s with hwiReactions := rest } acts p

/-- After an instruction, the platform reacts to the event it emitted, if it emitted one (R283). `before`
is the state the instruction ran on. -/
def afterExec (before : State) (out : Out) (p : Config := params) : Out :=
  match out with
  | .next t =>
    if before.hwiEvents.length < t.hwiEvents.length then
      match platformReact t p with
      | some u => .next u
      | none => .fault .platformStop
    else .next t
  | .fault r => .fault r
  | .refused r => .refused r

end Sys2Proof.Machine
end

