-- ==== Sys2Proof/Machine/Fetch.lean ====
section
/-! DEFINITION. Fetching an instruction's words (R95): the word at PC, PC up by one, and for IMP the word
at PC and PC up by one again, before anything is executed. -/

namespace Sys2Proof.Machine

/-- What a fetch delivers: the first word, the second word (0 where there is none), and the state with PC
past the instruction. -/
structure Fetched where
  first  : Word
  second : Word
  state  : State
deriving DecidableEq, Repr

/-- One word is fetched: PC moves past it (R95), modulo 2^16 (R28). -/
def advancePc (s : State) : State := s.setPc (s.pc + 1#16)

/-- One more instruction has been fetched (log 28). -/
def countInstr (s : State) : State := { s with instrCount := s.instrCount + 1 }

/-- The fetch of R95. -/
def fetch (s : State) (p : Config := params) : Fetched :=
  if opcodeOf (s.load s.pc p) = 0 then
    ⟨s.load s.pc p, s.load (s.pc + 1#16) p, countInstr (advancePc (advancePc s))⟩
  else ⟨s.load s.pc p, 0#16, countInstr (advancePc s)⟩

/-- The addresses of the words a fetch reads. -/
def fetchAddresses (s : State) (p : Config := params) : List Word :=
  if opcodeOf (s.load s.pc p) = 0 then [s.pc, s.pc + 1#16] else [s.pc]

/-- The words stored at PC and after it, as the fetch reads them. -/
def placeWords (s : State) (w n : Word) (p : Config := params) : State :=
  (s.store s.pc w p).store (s.pc + 1#16) n p

/-- No request is presented at the next step; the later ones stay. -/
def clearRequest (s : State) : State :=
  { s with requests := match s.requests with
                       | [] => []
                       | _ :: rest => none :: rest }

end Sys2Proof.Machine
end

