-- ==== Sys2Proof/Machine/Operands.lean ====
section
/-! DEFINITION. Operand forms: the halves of a 32-bit result and where they go (R11, R170), the access
modes (R130), the widening of EX, counts and messages, and the target of a jump. -/

namespace Sys2Proof.Machine

/-- Bits 31 to 16. -/
def hiHalf (v : DWord) : Word := v.extractLsb' 16 16

/-- Bits 15 to 0. -/
def loHalf (v : DWord) : Word := v.extractLsb' 0 16

/-- `{EX, x[a]} <- v` (R170): when a is r0 only EX is written. -/
def writeExReg (a : Reg) (v : DWord) (s : State) : State := (s.setEx (hiHalf v)).setReg a (loHalf v)

/-- `{x[a], EX} <- v` (R170): when a is r0 only EX is written. -/
def writeRegEx (a : Reg) (v : DWord) (s : State) : State := (s.setEx (loHalf v)).setReg a (hiHalf v)

/-- `mode_apply(mode, old, src)` (R130). -/
def modeApply (mode : AccessMode) (old src : Word) : Word :=
  match mode with
  | .set => src
  | .and => old &&& src
  | .ior => old ||| src
  | .xor => old ^^^ src

/-- EX as an addend of `adx` and `sbx` (R172, `EX_ADDEND_EXT`; log 13). -/
def exAddend (e : Extension) (ex : Word) : Int :=
  match e with
  | .zero => ex.toNat
  | .sign => ex.toInt

/-- The count of `shl`, `asr`, `shr` (R215, `SHIFT_COUNT`; log 17). -/
def shiftAmount (p : ShiftCount) (b : Word) : Nat :=
  match p with
  | .full => b.toNat
  | .low5 => b.toNat % 32
  | .low4 => b.toNat % 16

/-- The count of `rol`, `ror`: a count below 16 is itself (R218, `ROT_COUNT`; log 17). -/
def rotateAmount (b : Word) (p : Config := params) : Nat :=
  if b.toNat < 16 then b.toNat else (p.rotCount b).val

/-- The message of `swi` and `hwi` (R98, `UNA_MSG_EXT`; log 18). -/
def messageOf (e : Extension) (c : Nat) : Word :=
  match e with
  | .zero => BitVec.ofNat 16 c
  | .sign => (BitVec.ofNat 10 c).signExtend 16

/-- The operand of `gbs` (R182, `GBS_SRC`; log 16). -/
def gbsOperand (p : GbsSource) (b : Reg) (s : State) : Word :=
  match p with
  | .register => s.reg b
  | .field => BitVec.ofNat 16 b.val

/-- `trunc_16(u(v) + i)` for a signed immediate or offset (R181, R263). -/
def addSigned (v : Word) (i : Int) : Word := BitVec.ofInt 16 (v.toNat + i)

end Sys2Proof.Machine
end

