-- ==== Sys2Proof/Machine/Results.lean ====
section
/-! DEFINITION. What the arithmetic, logic, shift and test instructions compute, on values alone (R170 to
R228, R241 to R248): exact integers, then narrowed to 32 or 16 bits as the rule says. `x` is the first
operand, `y` the second. -/

namespace Sys2Proof.Machine

/-- `trunc_32(A + B)` (R171). -/
def add32 (x y : Word) : DWord := BitVec.ofNat 32 (x.toNat + y.toNat)

/-- `trunc_32(A + B + E)` (R172). -/
def adx32 (e : Extension) (ex x y : Word) : DWord :=
  BitVec.ofInt 32 ((x.toNat : Int) + y.toNat + exAddend e ex)

/-- `trunc_32(A - B)` (R173). -/
def sub32 (x y : Word) : DWord := BitVec.ofInt 32 ((x.toNat : Int) - y.toNat)

/-- `trunc_32(A - B + E)` (R174). -/
def sbx32 (e : Extension) (ex x y : Word) : DWord :=
  BitVec.ofInt 32 ((x.toNat : Int) - y.toNat + exAddend e ex)

/-- `trunc_32(A * B)` (R175). -/
def mul32 (x y : Word) : DWord := BitVec.ofNat 32 (x.toNat * y.toNat)

/-- `trunc_32(sA * sB)` (R176). -/
def mli32 (x y : Word) : DWord := BitVec.ofInt 32 (x.toInt * y.toInt)

/-- The unsigned 16.16 quotient `(A * 65536) div B`, for B other than 0 (R177; log 14). -/
def div32 (x y : Word) : DWord := BitVec.ofNat 32 (x.toNat * 65536 / y.toNat)

/-- The signed 16.16 quotient of `sA * 65536` and `sB`, for sB other than 0 (R178, `DVI_ROUND`; log 14). -/
def dvi32 (p : QuotientRounding) (x y : Word) : DWord :=
  match p with
  | .towardZero => BitVec.ofInt 32 ((x.toInt * 65536).tdiv y.toInt)
  | .floor => BitVec.ofInt 32 ((x.toInt * 65536).fdiv y.toInt)

/-- The unsigned remainder; a zero divisor gives the divisor (R179; log 15). -/
def mod16 (x y : Word) : Word := if y = 0#16 then y else BitVec.ofNat 16 (x.toNat % y.toNat)

/-- The signed remainder; a zero divisor gives the divisor (R180, `MDI_SIGN`; log 15). -/
def mdi16 (p : RemainderSign) (x y : Word) : Word :=
  if y = 0#16 then y else
    match p with
    | .dividend => BitVec.ofInt 16 (x.toInt - y.toInt * x.toInt.tdiv y.toInt)
    | .divisor => BitVec.ofInt 16 (x.toInt - y.toInt * x.toInt.fdiv y.toInt)

/-- The largest i in 0 to k with bit i set, or 0 if none is. -/
def highestBit (v : Word) : Nat → Nat
  | 0 => 0
  | k + 1 => if v.getLsbD (k + 1) then k + 1 else highestBit v k

/-- `gbs` of a value other than 0: the largest i in 0 to 15 with bit i set (R182). -/
def gbs16 (v : Word) : Word := BitVec.ofNat 16 (highestBit v 15)

/-- `trunc_32(A * 2^n)`: the zero-extended operand shifted left (R215). -/
def shl32 (x : Word) (n : Nat) : DWord := x.setWidth 32 <<< n

/-- `floor((sA * 65536) / 2^n)`: the operand over zeros, shifted right with its sign (R216). -/
def asr32 (x : Word) (n : Nat) : DWord := BitVec.sshiftRight (x ++ 0#16 : DWord) n

/-- `(A * 65536) div 2^n`: the operand over zeros, shifted right with zeros (R217). -/
def shr32 (x : Word) (n : Nat) : DWord := (x ++ 0#16 : DWord) >>> n

/-- Rotate left by `r` places, `r` below 16: the halves joined by inclusive or (R218). -/
def rol16 (x : Word) (r : Nat) : Word := (x <<< r) ||| (x >>> (16 - r))

/-- Rotate right by `r` places, `r` below 16 (R219). -/
def ror16 (x : Word) (r : Nat) : Word := (x >>> r) ||| (x <<< (16 - r))

/-- `x & ~y`, "BIt Clear" (R214). -/
def bic16 (x y : Word) : Word := x &&& ~~~y

end Sys2Proof.Machine
end

