-- ==== Sys2Proof/Machine/Arithmetic.lean ====
section
/-! DEFINITION. Integer arithmetic (42_arithmetic.md). Each shared operation takes the value of the second
operand: x[b] for an ORD instruction, the second word n for an IMP one (R170). Operands are read before
any result is written. None traps, touches memory or FL, or depends on the mode. -/

namespace Sys2Proof.Machine

/-- `EX:Ra := Ra + y` (R171, R183). -/
def addInto (a : Reg) (y : Word) (s : State) : Out := .next (writeExReg a (add32 (s.reg a) y) s)

/-- `EX:Ra := Ra + y + EX` (R172, R184). -/
def adxInto (a : Reg) (y : Word) (s : State) (p : Config := params) : Out :=
  .next (writeExReg a (adx32 p.exAddendExt s.ex (s.reg a) y) s)

/-- `EX:Ra := Ra - y` (R173, R185). -/
def subInto (a : Reg) (y : Word) (s : State) : Out := .next (writeExReg a (sub32 (s.reg a) y) s)

/-- `EX:Ra := Ra - y + EX` (R174, R186). -/
def sbxInto (a : Reg) (y : Word) (s : State) (p : Config := params) : Out :=
  .next (writeExReg a (sbx32 p.exAddendExt s.ex (s.reg a) y) s)

/-- `EX:Ra := Ra * y`, unsigned (R175, R187). -/
def mulInto (a : Reg) (y : Word) (s : State) : Out := .next (writeExReg a (mul32 (s.reg a) y) s)

/-- `EX:Ra := Ra * y`, signed (R176, R188). -/
def mliInto (a : Reg) (y : Word) (s : State) : Out := .next (writeExReg a (mli32 (s.reg a) y) s)

/-- A division by zero: Ra takes 0xffff, EX an unspecified value (R177, R178, `DIV0_EX`; log 6). -/
def divByZero (a : Reg) (s : State) (p : Config := params) : State :=
  ((s.setEx (p.divZeroEx s.draws)).drawn).setReg a 0xffff#16

/-- `Ra:EX := Ra / y`, unsigned (R177, R189). -/
def divInto (a : Reg) (y : Word) (s : State) (p : Config := params) : Out :=
  if y = 0#16 then .next (divByZero a s p) else .next (writeRegEx a (div32 (s.reg a) y) s)

/-- `Ra:EX := Ra / y`, signed (R178, R190). -/
def dviInto (a : Reg) (y : Word) (s : State) (p : Config := params) : Out :=
  if y = 0#16 then .next (divByZero a s p) else .next (writeRegEx a (dvi32 p.dviRound (s.reg a) y) s)

/-- `Ra := Ra % y`, unsigned (R179, R191). -/
def modInto (a : Reg) (y : Word) (s : State) : Out := .next (s.setReg a (mod16 (s.reg a) y))

/-- `Ra := Ra % y`, signed (R180, R192). -/
def mdiInto (a : Reg) (y : Word) (s : State) (p : Config := params) : Out :=
  .next (s.setReg a (mdi16 p.mdiSign (s.reg a) y))

/-- `add a, b` (R171). -/
def execAdd (a b : Reg) (s : State) : Out := addInto a (s.reg b) s

/-- `adx a, b` (R172). -/
def execAdx (a b : Reg) (s : State) (p : Config := params) : Out := adxInto a (s.reg b) s p

/-- `sub a, b` (R173). -/
def execSub (a b : Reg) (s : State) : Out := subInto a (s.reg b) s

/-- `sbx a, b` (R174). -/
def execSbx (a b : Reg) (s : State) (p : Config := params) : Out := sbxInto a (s.reg b) s p

/-- `mul a, b` (R175). -/
def execMul (a b : Reg) (s : State) : Out := mulInto a (s.reg b) s

/-- `mli a, b` (R176). -/
def execMli (a b : Reg) (s : State) : Out := mliInto a (s.reg b) s

/-- `div a, b` (R177). -/
def execDiv (a b : Reg) (s : State) (p : Config := params) : Out := divInto a (s.reg b) s p

/-- `dvi a, b` (R178). -/
def execDvi (a b : Reg) (s : State) (p : Config := params) : Out := dviInto a (s.reg b) s p

/-- `mod a, b` (R179). -/
def execMod (a b : Reg) (s : State) : Out := modInto a (s.reg b) s

/-- `mdi a, b` (R180). -/
def execMdi (a b : Reg) (s : State) (p : Config := params) : Out := mdiInto a (s.reg b) s p

/-- `inc a, b` (R181): b is a signed immediate; EX is not written. -/
def execInc (a : Reg) (imm : Int) (s : State) : Out := .next (s.setReg a (addSigned (s.reg a) imm))

/-- `gbs a, b` (R182); of 0 the result is an unspecified value (`GBS_ZERO`; log 7). -/
def execGbs (a b : Reg) (s : State) (p : Config := params) : Out :=
  if gbsOperand p.gbsSource b s = 0#16 then .next (s.drawn.setReg a (p.gbsOfZero s.draws))
  else .next (s.setReg a (gbs16 (gbsOperand p.gbsSource b s)))

/-- `imp add a, n` (R183). -/
def execImpAdd (a : Reg) (n : Word) (s : State) : Out := addInto a n s

/-- `imp adx a, n` (R184). -/
def execImpAdx (a : Reg) (n : Word) (s : State) (p : Config := params) : Out := adxInto a n s p

/-- `imp sub a, n` (R185). -/
def execImpSub (a : Reg) (n : Word) (s : State) : Out := subInto a n s

/-- `imp sbx a, n` (R186). -/
def execImpSbx (a : Reg) (n : Word) (s : State) (p : Config := params) : Out := sbxInto a n s p

/-- `imp mul a, n` (R187). -/
def execImpMul (a : Reg) (n : Word) (s : State) : Out := mulInto a n s

/-- `imp mli a, n` (R188). -/
def execImpMli (a : Reg) (n : Word) (s : State) : Out := mliInto a n s

/-- `imp div a, n` (R189). -/
def execImpDiv (a : Reg) (n : Word) (s : State) (p : Config := params) : Out := divInto a n s p

/-- `imp dvi a, n` (R190). -/
def execImpDvi (a : Reg) (n : Word) (s : State) (p : Config := params) : Out := dviInto a n s p

/-- `imp mod a, n` (R191). -/
def execImpMod (a : Reg) (n : Word) (s : State) : Out := modInto a n s

/-- `imp mdi a, n` (R192). -/
def execImpMdi (a : Reg) (n : Word) (s : State) (p : Config := params) : Out := mdiInto a n s p

/-- `imp inc a, n` (R193): EX is not written. -/
def execImpInc (a : Reg) (n : Word) (s : State) : Out := .next (s.setReg a (s.reg a + n))

end Sys2Proof.Machine
end

