-- ==== Sys2Proof/Machine/Compare.lean ====
section
/-! DEFINITION. Test and compare (44_test_compare.md): EX takes the whole 16-bit result and nothing else
changes (R240). -/

namespace Sys2Proof.Machine

/-- EX takes a function of Ra and the second operand (R240). -/
def testInto (f : Word → Word → Word) (a : Reg) (y : Word) (s : State) : Out :=
  .next (s.setEx (f (s.reg a) y))

/-- `tst a, b` (R241). -/
def execTst (a b : Reg) (s : State) : Out := testInto (· &&& ·) a (s.reg b) s

/-- `teq a, b` (R242). -/
def execTeq (a b : Reg) (s : State) : Out := testInto (· ^^^ ·) a (s.reg b) s

/-- `cmp a, b` (R243). -/
def execCmp (a b : Reg) (s : State) : Out := testInto (· - ·) a (s.reg b) s

/-- `cmn a, b` (R244). -/
def execCmn (a b : Reg) (s : State) : Out := testInto (· + ·) a (s.reg b) s

/-- `imp tst a, n` (R245). -/
def execImpTst (a : Reg) (n : Word) (s : State) : Out := testInto (· &&& ·) a n s

/-- `imp teq a, n` (R246). -/
def execImpTeq (a : Reg) (n : Word) (s : State) : Out := testInto (· ^^^ ·) a n s

/-- `imp cmp a, n` (R247). -/
def execImpCmp (a : Reg) (n : Word) (s : State) : Out := testInto (· - ·) a n s

/-- `imp cmn a, n` (R248). -/
def execImpCmn (a : Reg) (n : Word) (s : State) : Out := testInto (· + ·) a n s

end Sys2Proof.Machine
end

