-- ==== Sys2Proof/Machine/Control.lean ====
section
/-! DEFINITION. Control transfer (45_control_transfer.md). PC already points past the instruction (R27). -/

namespace Sys2Proof.Machine

/-- `srl a, b` (R261): the second step reads the registers as the first left them. -/
def execSrl (a b : Reg) (s : State) : Out := .next ((s.setReg a s.pc).setPc ((s.setReg a s.pc).reg b))

/-- `imp srl a, n` (R262). -/
def execImpSrl (a : Reg) (n : Word) (s : State) : Out := .next ((s.setReg a s.pc).setPc n)

/-- `jpn c` when a condition holds, nothing when it does not (R263 to R269). -/
def jumpIf (taken : Bool) (off : Int) (s : State) : Out :=
  .next (if taken then s.setPc (addSigned s.pc off) else s)

/-- `jmp c` (R263). -/
def execJmp (off : Int) (s : State) : Out := jumpIf true off s

/-- `jlt c` (R264). -/
def execJlt (off : Int) (s : State) : Out := jumpIf (exLt s.ex) off s

/-- `jle c` (R265). -/
def execJle (off : Int) (s : State) : Out := jumpIf (exLe s.ex) off s

/-- `jgt c` (R266). -/
def execJgt (off : Int) (s : State) : Out := jumpIf (exGt s.ex) off s

/-- `jge c` (R267). -/
def execJge (off : Int) (s : State) : Out := jumpIf (exGe s.ex) off s

/-- `jeq c` (R268). -/
def execJeq (off : Int) (s : State) : Out := jumpIf (exEq s.ex) off s

/-- `jne c` (R269). -/
def execJne (off : Int) (s : State) : Out := jumpIf (exNe s.ex) off s

end Sys2Proof.Machine
end

