-- ==== Sys2Proof/Machine/Interrupts.lean ====
section
/-! DEFINITION. The interrupt group: `swi`, `hwi`, `ire`, `imp brk` (46_interrupt_instructions.md). -/

namespace Sys2Proof.Machine

/-- `swi c` (R281): in any mode, whatever FL.I is. -/
def execSwi (c : Nat) (s : State) (p : Config := params) : Out :=
  .next (raiseInterrupt .software (messageOf p.unaMsgExt c) s)

/-- `hwi c` (R282): in supervisor mode the event is emitted; in user mode nothing happens (R321). What
the platform does on the event is the environment's (`platformReact`). -/
def execHwi (c : Nat) (s : State) (p : Config := params) : Out :=
  .next (if s.supervisor then emitHwi (messageOf p.unaMsgExt c) s else s)

/-- `ire c` (R284): in any mode; only whether c is 0 matters. -/
def execIre (c : Nat) (s : State) : Out := .next (returnFromInterrupt (c != 0) s)

/-- `imp brk` (R285): the unused field and second word have no effect (R106). -/
def execImpBrk (_a : Reg) (_n : Word) (s : State) : Out := .next (raiseInterrupt .brk 0xffff#16 s)

end Sys2Proof.Machine
end

