-- ==== Sys2Proof/Machine/LoadStore.lean ====
section
/-! DEFINITION. Loads, stores, stacks and memory move (41_memory_stack.md). The steps of an effect run left
to right, each reading the registers as the one before left them (R10, D4; log 19). -/

namespace Sys2Proof.Machine

/-- `str a, b` (R150). -/
def execStr (a b : Reg) (s : State) (p : Config := params) : Out := .next (s.store (s.reg a) (s.reg b) p)

/-- The first step of a push: the stack pointer goes down by one (R151, R156). -/
def pushPointer (a : Reg) (s : State) : State := s.setReg a (s.reg a - 1#16)

/-- `psh a, b` (R151). -/
def execPsh (a b : Reg) (s : State) (p : Config := params) : Out :=
  .next ((pushPointer a s).store ((pushPointer a s).reg a) ((pushPointer a s).reg b) p)

/-- `loa a, b` (R152). -/
def execLoa (a b : Reg) (s : State) (p : Config := params) : Out := .next (s.setReg a (s.load (s.reg b) p))

/-- A pointer steps to the next word (R153, R154). -/
def stepPointer (r : Reg) (s : State) : State := s.setReg r (s.reg r + 1#16)

/-- `pop a, b` (R153). -/
def execPop (a b : Reg) (s : State) (p : Config := params) : Out :=
  .next (stepPointer b (s.setReg a (s.load (s.reg b) p)))

/-- `mom a, b` (R154). -/
def execMom (a b : Reg) (s : State) (p : Config := params) : Out :=
  .next (stepPointer b (stepPointer a (s.store (s.reg a) (s.load (s.reg b) p) p)))

/-- `imp str a, n` (R155). -/
def execImpStr (a : Reg) (n : Word) (s : State) (p : Config := params) : Out := .next (s.store (s.reg a) n p)

/-- `imp psh a, n` (R156). -/
def execImpPsh (a : Reg) (n : Word) (s : State) (p : Config := params) : Out :=
  .next ((pushPointer a s).store ((pushPointer a s).reg a) n p)

end Sys2Proof.Machine
end

