-- ==== Sys2Proof/Machine/Logic.lean ====
section
/-! DEFINITION. Bitwise logic, shifts and rotates (43_logic_shift.md). The logic instructions and the
rotates write only Ra; the shifts write EX too (R210). The shared operations take the value of the second
operand: x[b] or n. -/

namespace Sys2Proof.Machine

/-- Ra takes a function of itself and the second operand; EX is not written (R210). -/
def logicInto (f : Word → Word → Word) (a : Reg) (y : Word) (s : State) : Out :=
  .next (s.setReg a (f (s.reg a) y))

/-- `EX:Ra := Ra << y` (R215, R224). -/
def shlInto (a : Reg) (y : Word) (s : State) (p : Config := params) : Out :=
  .next (writeExReg a (shl32 (s.reg a) (shiftAmount p.shiftCount y)) s)

/-- `Ra:EX := Ra >> y`, arithmetic (R216, R225). -/
def asrInto (a : Reg) (y : Word) (s : State) (p : Config := params) : Out :=
  .next (writeRegEx a (asr32 (s.reg a) (shiftAmount p.shiftCount y)) s)

/-- `Ra:EX := Ra >> y`, logical (R217, R226). -/
def shrInto (a : Reg) (y : Word) (s : State) (p : Config := params) : Out :=
  .next (writeRegEx a (shr32 (s.reg a) (shiftAmount p.shiftCount y)) s)

/-- Rotate Ra left; EX is not written (R218, R227). -/
def rolInto (a : Reg) (y : Word) (s : State) (p : Config := params) : Out :=
  .next (s.setReg a (rol16 (s.reg a) (rotateAmount y p)))

/-- Rotate Ra right; EX is not written (R219, R228). -/
def rorInto (a : Reg) (y : Word) (s : State) (p : Config := params) : Out :=
  .next (s.setReg a (ror16 (s.reg a) (rotateAmount y p)))

/-- `and a, b` (R211). -/
def execAnd (a b : Reg) (s : State) : Out := logicInto (· &&& ·) a (s.reg b) s

/-- `ior a, b` (R212). -/
def execIor (a b : Reg) (s : State) : Out := logicInto (· ||| ·) a (s.reg b) s

/-- `xor a, b` (R213). -/
def execXor (a b : Reg) (s : State) : Out := logicInto (· ^^^ ·) a (s.reg b) s

/-- `bic a, b` (R214). -/
def execBic (a b : Reg) (s : State) : Out := logicInto bic16 a (s.reg b) s

/-- `shl a, b` (R215). -/
def execShl (a b : Reg) (s : State) (p : Config := params) : Out := shlInto a (s.reg b) s p

/-- `asr a, b` (R216). -/
def execAsr (a b : Reg) (s : State) (p : Config := params) : Out := asrInto a (s.reg b) s p

/-- `shr a, b` (R217). -/
def execShr (a b : Reg) (s : State) (p : Config := params) : Out := shrInto a (s.reg b) s p

/-- `rol a, b` (R218). -/
def execRol (a b : Reg) (s : State) (p : Config := params) : Out := rolInto a (s.reg b) s p

/-- `ror a, b` (R219). -/
def execRor (a b : Reg) (s : State) (p : Config := params) : Out := rorInto a (s.reg b) s p

/-- `imp and a, n` (R220). -/
def execImpAnd (a : Reg) (n : Word) (s : State) : Out := logicInto (· &&& ·) a n s

/-- `imp ior a, n` (R221). -/
def execImpIor (a : Reg) (n : Word) (s : State) : Out := logicInto (· ||| ·) a n s

/-- `imp xor a, n` (R222). -/
def execImpXor (a : Reg) (n : Word) (s : State) : Out := logicInto (· ^^^ ·) a n s

/-- `imp bic a, n` (R223). -/
def execImpBic (a : Reg) (n : Word) (s : State) : Out := logicInto bic16 a n s

/-- `imp shl a, n` (R224). -/
def execImpShl (a : Reg) (n : Word) (s : State) (p : Config := params) : Out := shlInto a n s p

/-- `imp asr a, n` (R225). -/
def execImpAsr (a : Reg) (n : Word) (s : State) (p : Config := params) : Out := asrInto a n s p

/-- `imp shr a, n` (R226). -/
def execImpShr (a : Reg) (n : Word) (s : State) (p : Config := params) : Out := shrInto a n s p

/-- `imp rol a, n` (R227). -/
def execImpRol (a : Reg) (n : Word) (s : State) (p : Config := params) : Out := rolInto a n s p

/-- `imp ror a, n` (R228). -/
def execImpRor (a : Reg) (n : Word) (s : State) (p : Config := params) : Out := rorInto a n s p

end Sys2Proof.Machine
end

