-- ==== Sys2Proof/Machine/Moves.lean ====
section
/-! DEFINITION. Register moves and control register access: `mov`, `mtc`, `mfc`, `imp mov`, `imp mtc`
(40_move.md). PC already points past the instruction (R95). -/

namespace Sys2Proof.Machine

/-- What `mtc` and `imp mtc` share: in supervisor mode the control register takes the combination of its
old value and `src` (R132, R135, R136); in user mode nothing happens (R137). The old value of c2 and c3
reaches nothing, since a write of them is dropped (R30). -/
def moveToControl (k : CregSel) (src : Word) (s : State) (p : Config := params) : Out :=
  if s.supervisor then .next (s.setCreg k.idx (modeApply k.mode (s.held k.idx) src) p) else .next s

/-- `mov a, b` (R131). -/
def execMov (a b : Reg) (s : State) : Out := .next (s.setReg a (s.reg b))

/-- `mtc k, b` (R132). -/
def execMtc (k : CregSel) (b : Reg) (s : State) (p : Config := params) : Out := moveToControl k (s.reg b) s p

/-- `mfc a, k` (R133), in any mode. -/
def execMfc (a : Reg) (k : CregSel) (s : State) (p : Config := params) : Out :=
  .next ((s.afterRead k.idx).setReg a (modeApply k.mode (s.reg a) (s.readCreg k.idx p)))

/-- `imp mov a, n` (R134). -/
def execImpMov (a : Reg) (n : Word) (s : State) : Out := .next (s.setReg a n)

/-- `imp mtc k, n` (R135). -/
def execImpMtc (k : CregSel) (n : Word) (s : State) (p : Config := params) : Out := moveToControl k n s p

end Sys2Proof.Machine
end

