-- ==== Sys2Proof/Machine/Dispatch.lean ====
section
/-! DEFINITION. The meaning of every instruction, one arm per constructor. -/

namespace Sys2Proof.Machine

def exec (i : Instr) (s : State) : Host.Outcome State Fault Refusal :=
  match i with
  | .mov a b => Sys2Proof.Machine.execMov a b s
  | .mtc k b => Sys2Proof.Machine.execMtc k b s
  | .mfc a k => Sys2Proof.Machine.execMfc a k s
  | .str a b => Sys2Proof.Machine.execStr a b s
  | .psh a b => Sys2Proof.Machine.execPsh a b s
  | .loa a b => Sys2Proof.Machine.execLoa a b s
  | .pop a b => Sys2Proof.Machine.execPop a b s
  | .mom a b => Sys2Proof.Machine.execMom a b s
  | .srl a b => Sys2Proof.Machine.execSrl a b s
  | .add a b => Sys2Proof.Machine.execAdd a b s
  | .adx a b => Sys2Proof.Machine.execAdx a b s
  | .sub a b => Sys2Proof.Machine.execSub a b s
  | .sbx a b => Sys2Proof.Machine.execSbx a b s
  | .mul a b => Sys2Proof.Machine.execMul a b s
  | .mli a b => Sys2Proof.Machine.execMli a b s
  | .div a b => Sys2Proof.Machine.execDiv a b s
  | .dvi a b => Sys2Proof.Machine.execDvi a b s
  | .mod a b => Sys2Proof.Machine.execMod a b s
  | .mdi a b => Sys2Proof.Machine.execMdi a b s
  | .inc a imm => Sys2Proof.Machine.execInc a imm s
  | .gbs a b => Sys2Proof.Machine.execGbs a b s
  | .and a b => Sys2Proof.Machine.execAnd a b s
  | .ior a b => Sys2Proof.Machine.execIor a b s
  | .xor a b => Sys2Proof.Machine.execXor a b s
  | .bic a b => Sys2Proof.Machine.execBic a b s
  | .shl a b => Sys2Proof.Machine.execShl a b s
  | .asr a b => Sys2Proof.Machine.execAsr a b s
  | .shr a b => Sys2Proof.Machine.execShr a b s
  | .rol a b => Sys2Proof.Machine.execRol a b s
  | .ror a b => Sys2Proof.Machine.execRor a b s
  | .tst a b => Sys2Proof.Machine.execTst a b s
  | .teq a b => Sys2Proof.Machine.execTeq a b s
  | .cmp a b => Sys2Proof.Machine.execCmp a b s
  | .cmn a b => Sys2Proof.Machine.execCmn a b s
  | .jmp off => Sys2Proof.Machine.execJmp off s
  | .jlt off => Sys2Proof.Machine.execJlt off s
  | .jle off => Sys2Proof.Machine.execJle off s
  | .jgt off => Sys2Proof.Machine.execJgt off s
  | .jge off => Sys2Proof.Machine.execJge off s
  | .jeq off => Sys2Proof.Machine.execJeq off s
  | .jne off => Sys2Proof.Machine.execJne off s
  | .swi c => Sys2Proof.Machine.execSwi c s
  | .hwi c => Sys2Proof.Machine.execHwi c s
  | .ire c => Sys2Proof.Machine.execIre c s
  | .impBrk a n => Sys2Proof.Machine.execImpBrk a n s
  | .impMov a n => Sys2Proof.Machine.execImpMov a n s
  | .impMtc k n => Sys2Proof.Machine.execImpMtc k n s
  | .impStr a n => Sys2Proof.Machine.execImpStr a n s
  | .impPsh a n => Sys2Proof.Machine.execImpPsh a n s
  | .impSrl a n => Sys2Proof.Machine.execImpSrl a n s
  | .impAdd a n => Sys2Proof.Machine.execImpAdd a n s
  | .impAdx a n => Sys2Proof.Machine.execImpAdx a n s
  | .impSub a n => Sys2Proof.Machine.execImpSub a n s
  | .impSbx a n => Sys2Proof.Machine.execImpSbx a n s
  | .impMul a n => Sys2Proof.Machine.execImpMul a n s
  | .impMli a n => Sys2Proof.Machine.execImpMli a n s
  | .impDiv a n => Sys2Proof.Machine.execImpDiv a n s
  | .impDvi a n => Sys2Proof.Machine.execImpDvi a n s
  | .impMod a n => Sys2Proof.Machine.execImpMod a n s
  | .impMdi a n => Sys2Proof.Machine.execImpMdi a n s
  | .impInc a n => Sys2Proof.Machine.execImpInc a n s
  | .impAnd a n => Sys2Proof.Machine.execImpAnd a n s
  | .impIor a n => Sys2Proof.Machine.execImpIor a n s
  | .impXor a n => Sys2Proof.Machine.execImpXor a n s
  | .impBic a n => Sys2Proof.Machine.execImpBic a n s
  | .impShl a n => Sys2Proof.Machine.execImpShl a n s
  | .impAsr a n => Sys2Proof.Machine.execImpAsr a n s
  | .impShr a n => Sys2Proof.Machine.execImpShr a n s
  | .impRol a n => Sys2Proof.Machine.execImpRol a n s
  | .impRor a n => Sys2Proof.Machine.execImpRor a n s
  | .impTst a n => Sys2Proof.Machine.execImpTst a n s
  | .impTeq a n => Sys2Proof.Machine.execImpTeq a n s
  | .impCmp a n => Sys2Proof.Machine.execImpCmp a n s
  | .impCmn a n => Sys2Proof.Machine.execImpCmn a n s

end Sys2Proof.Machine
end

