-- ==== Sys2Proof/Machine/Parametric.lean ====
section
/-! DEFINITION. The machine under any configuration (R6, R43): `execWith` is `exec` with the parameters as an
argument, and the accesses of an instruction are held against the regions of `PLATFORM_MAP` (R71, D34). -/

namespace Sys2Proof.Machine

/-- The meaning of every instruction under a configuration; under `params` it is `exec`
(`execWith_params`). Instructions that no parameter touches do not take it. -/
def execWith (p : Config) (i : Instr) (s : State) : Out :=
  match i with
  | .mov a b => execMov a b s
  | .mtc k b => execMtc k b s p
  | .mfc a k => execMfc a k s p
  | .str a b => execStr a b s p
  | .psh a b => execPsh a b s p
  | .loa a b => execLoa a b s p
  | .pop a b => execPop a b s p
  | .mom a b => execMom a b s p
  | .srl a b => execSrl a b s
  | .add a b => execAdd a b s
  | .adx a b => execAdx a b s p
  | .sub a b => execSub a b s
  | .sbx a b => execSbx a b s p
  | .mul a b => execMul a b s
  | .mli a b => execMli a b s
  | .div a b => execDiv a b s p
  | .dvi a b => execDvi a b s p
  | .mod a b => execMod a b s
  | .mdi a b => execMdi a b s p
  | .inc a imm => execInc a imm s
  | .gbs a b => execGbs a b s p
  | .and a b => execAnd a b s
  | .ior a b => execIor a b s
  | .xor a b => execXor a b s
  | .bic a b => execBic a b s
  | .shl a b => execShl a b s p
  | .asr a b => execAsr a b s p
  | .shr a b => execShr a b s p
  | .rol a b => execRol a b s p
  | .ror a b => execRor a b s p
  | .tst a b => execTst a b s
  | .teq a b => execTeq a b s
  | .cmp a b => execCmp a b s
  | .cmn a b => execCmn a b s
  | .jmp off => execJmp off s
  | .jlt off => execJlt off s
  | .jle off => execJle off s
  | .jgt off => execJgt off s
  | .jge off => execJge off s
  | .jeq off => execJeq off s
  | .jne off => execJne off s
  | .swi c => execSwi c s p
  | .hwi c => execHwi c s p
  | .ire c => execIre c s
  | .impBrk a n => execImpBrk a n s
  | .impMov a n => execImpMov a n s
  | .impMtc k n => execImpMtc k n s p
  | .impStr a n => execImpStr a n s p
  | .impPsh a n => execImpPsh a n s p
  | .impSrl a n => execImpSrl a n s
  | .impAdd a n => execImpAdd a n s
  | .impAdx a n => execImpAdx a n s p
  | .impSub a n => execImpSub a n s
  | .impSbx a n => execImpSbx a n s p
  | .impMul a n => execImpMul a n s
  | .impMli a n => execImpMli a n s
  | .impDiv a n => execImpDiv a n s p
  | .impDvi a n => execImpDvi a n s p
  | .impMod a n => execImpMod a n s
  | .impMdi a n => execImpMdi a n s p
  | .impInc a n => execImpInc a n s
  | .impAnd a n => execImpAnd a n s
  | .impIor a n => execImpIor a n s
  | .impXor a n => execImpXor a n s
  | .impBic a n => execImpBic a n s
  | .impShl a n => execImpShl a n s p
  | .impAsr a n => execImpAsr a n s p
  | .impShr a n => execImpShr a n s p
  | .impRol a n => execImpRol a n s p
  | .impRor a n => execImpRor a n s p
  | .impTst a n => execImpTst a n s
  | .impTeq a n => execImpTeq a n s
  | .impCmp a n => execImpCmp a n s
  | .impCmn a n => execImpCmn a n s

/-- The word addresses an instruction accesses as data, in the order of its steps (R68, R150 to R156). -/
def dataAddresses (i : Instr) (s : State) : List Word :=
  match i with
  | .str a _ => [s.reg a]
  | .impStr a _ => [s.reg a]
  | .psh a _ => [(pushPointer a s).reg a]
  | .impPsh a _ => [(pushPointer a s).reg a]
  | .loa _ b => [s.reg b]
  | .pop _ b => [s.reg b]
  | .mom a b => [s.reg b, s.reg a]
  | .mov _ _ | .mtc _ _ | .mfc _ _ | .srl _ _ | .add _ _ | .adx _ _ | .sub _ _ | .sbx _ _ | .mul _ _
  | .mli _ _ | .div _ _ | .dvi _ _ | .mod _ _ | .mdi _ _ | .inc _ _ | .gbs _ _ | .and _ _ | .ior _ _
  | .xor _ _ | .bic _ _ | .shl _ _ | .asr _ _ | .shr _ _ | .rol _ _ | .ror _ _ | .tst _ _ | .teq _ _
  | .cmp _ _ | .cmn _ _ | .jmp _ | .jlt _ | .jle _ | .jgt _ | .jge _ | .jeq _ | .jne _ | .swi _ | .hwi _
  | .ire _ | .impBrk _ _ | .impMov _ _ | .impMtc _ _ | .impSrl _ _ | .impAdd _ _ | .impAdx _ _ | .impSub _ _
  | .impSbx _ _ | .impMul _ _ | .impMli _ _ | .impDiv _ _ | .impDvi _ _ | .impMod _ _ | .impMdi _ _
  | .impInc _ _ | .impAnd _ _ | .impIor _ _ | .impXor _ _ | .impBic _ _ | .impShl _ _ | .impAsr _ _
  | .impShr _ _ | .impRol _ _ | .impRor _ _ | .impTst _ _ | .impTeq _ _ | .impCmp _ _ | .impCmn _ _ => []

/-- The first of some addresses that lies in a region of the platform map, if any does. -/
def firstRegion (map : List PlatformRegion) (addresses : List Word) : Option Word :=
  addresses.find? fun a => map.any fun r => r.covers a

/-- How the machine stops at a code without a table row (R105, `UNASSIGNED_OP`; log 11). -/
def unassignedStop (u : UnassignedOp) (w : Word) : Out :=
  match u with
  | .fault => .fault (.unassignedOpcode w)
  | .refuse => .refused (.unassignedCode w)

end Sys2Proof.Machine
end

