-- ==== Sys2Proof/Machine/Step.lean ====
section
/-! DEFINITION. The step of the core (R301), and an instruction placed where the next step fetches it. -/

namespace Sys2Proof.Machine

/-- One step under a configuration (R301), `run` giving each instruction its meaning: an external interrupt
that is requested while FL.I is 0 is taken and no instruction executes; otherwise one instruction is
fetched, decoded and executed, and the platform reacts to the `hwi` event it emitted, if any. A code
without a table row stops the machine (R105), and so does an access to a region of the platform map (R71). -/
def stepOf (p : Config) (run : Instr → State → Out) (s : State) : Out :=
  match acceptedRequest s with
  | some m => .next (raiseInterrupt .hardware m (consumeRequest s))
  | none =>
    match firstRegion p.platformMap (fetchAddresses (consumeRequest s) p) with
    | some a => .refused (.platformRegion a)
    | none =>
      match decode (fetch (consumeRequest s) p).first (fetch (consumeRequest s) p).second with
      | .error _ => unassignedStop p.unassignedOp (fetch (consumeRequest s) p).first
      | .ok i =>
        match firstRegion p.platformMap (dataAddresses i (fetch (consumeRequest s) p).state) with
        | some a => .refused (.platformRegion a)
        | none => afterExec (fetch (consumeRequest s) p).state (run i (fetch (consumeRequest s) p).state) p

/-- One step of the machine under a configuration, for claims that name or quantify over a parameter (R6). -/
def stepWith (p : Config) (s : State) : Out := stepOf p (execWith p) s

/-- One step of the machine: `stepOf` with the spec's defaults and `exec`. Under them no address lies in a
region and an unassigned code is a model fault. -/
def step (s : State) : Host.Outcome State Fault Refusal := stepOf params exec s

/-- The instruction of a table word stored at PC, and no request presented at the next step, so that
`step` fetches and runs it (log 10). -/
def State.withFetchWord (s : State) (nbits w : Nat) : State :=
  clearRequest (placeWords s (tableWords nbits w).1 (tableWords nbits w).2)

end Sys2Proof.Machine
end

