-- ==== Sys2Proof/Safety.lean ====
section
/-! DEFINITION. The vocabulary of the claims: completion, frames, groups of instructions, the invariant of
the machine, when a run has ended (R345), and what the spec advises a cautious model to refuse. -/

namespace Sys2Proof

/-- The instructions that write memory (R68). -/
def Instr.storesMemory : Instr → Bool
  | .str _ _ | .psh _ _ | .mom _ _ | .impStr _ _ | .impPsh _ _ => true
  | .mov _ _ | .mtc _ _ | .mfc _ _ | .loa _ _ | .pop _ _ | .srl _ _ | .add _ _ | .adx _ _ | .sub _ _
  | .sbx _ _ | .mul _ _ | .mli _ _ | .div _ _ | .dvi _ _ | .mod _ _ | .mdi _ _ | .inc _ _ | .gbs _ _
  | .and _ _ | .ior _ _ | .xor _ _ | .bic _ _ | .shl _ _ | .asr _ _ | .shr _ _ | .rol _ _ | .ror _ _
  | .tst _ _ | .teq _ _ | .cmp _ _ | .cmn _ _ | .jmp _ | .jlt _ | .jle _ | .jgt _ | .jge _ | .jeq _
  | .jne _ | .swi _ | .hwi _ | .ire _ | .impBrk _ _ | .impMov _ _ | .impMtc _ _ | .impSrl _ _
  | .impAdd _ _ | .impAdx _ _ | .impSub _ _ | .impSbx _ _ | .impMul _ _ | .impMli _ _ | .impDiv _ _
  | .impDvi _ _ | .impMod _ _ | .impMdi _ _ | .impInc _ _ | .impAnd _ _ | .impIor _ _ | .impXor _ _
  | .impBic _ _ | .impShl _ _ | .impAsr _ _ | .impShr _ _ | .impRol _ _ | .impRor _ _ | .impTst _ _
  | .impTeq _ _ | .impCmp _ _ | .impCmn _ _ => false

/-- The instructions that write EX by their effect line (R38); `mtc` and `imp mtc` with index 1 write it too. -/
def Instr.computesEx : Instr → Bool
  | .add _ _ | .adx _ _ | .sub _ _ | .sbx _ _ | .mul _ _ | .mli _ _ | .div _ _ | .dvi _ _ | .shl _ _
  | .asr _ _ | .shr _ _ | .tst _ _ | .teq _ _ | .cmp _ _ | .cmn _ _ | .impAdd _ _ | .impAdx _ _
  | .impSub _ _ | .impSbx _ _ | .impMul _ _ | .impMli _ _ | .impDiv _ _ | .impDvi _ _ | .impShl _ _
  | .impAsr _ _ | .impShr _ _ | .impTst _ _ | .impTeq _ _ | .impCmp _ _ | .impCmn _ _ => true
  | .mov _ _ | .mtc _ _ | .mfc _ _ | .str _ _ | .psh _ _ | .loa _ _ | .pop _ _ | .mom _ _ | .srl _ _
  | .mod _ _ | .mdi _ _ | .inc _ _ | .gbs _ _ | .and _ _ | .ior _ _ | .xor _ _ | .bic _ _ | .rol _ _
  | .ror _ _ | .jmp _ | .jlt _ | .jle _ | .jgt _ | .jge _ | .jeq _ | .jne _ | .swi _ | .hwi _ | .ire _
  | .impBrk _ _ | .impMov _ _ | .impMtc _ _ | .impStr _ _ | .impPsh _ _ | .impSrl _ _ | .impMod _ _
  | .impMdi _ _ | .impInc _ _ | .impAnd _ _ | .impIor _ _ | .impXor _ _ | .impBic _ _ | .impRol _ _
  | .impRor _ _ => false

/-- The instructions that write FL (R34 to R37). -/
def Instr.mayWriteFl : Instr → Bool
  | .mtc _ _ | .swi _ | .ire _ | .impBrk _ _ | .impMtc _ _ => true
  | .mov _ _ | .mfc _ _ | .str _ _ | .psh _ _ | .loa _ _ | .pop _ _ | .mom _ _ | .srl _ _ | .add _ _
  | .adx _ _ | .sub _ _ | .sbx _ _ | .mul _ _ | .mli _ _ | .div _ _ | .dvi _ _ | .mod _ _ | .mdi _ _
  | .inc _ _ | .gbs _ _ | .and _ _ | .ior _ _ | .xor _ _ | .bic _ _ | .shl _ _ | .asr _ _ | .shr _ _
  | .rol _ _ | .ror _ _ | .tst _ _ | .teq _ _ | .cmp _ _ | .cmn _ _ | .jmp _ | .jlt _ | .jle _ | .jgt _
  | .jge _ | .jeq _ | .jne _ | .hwi _ | .impMov _ _ | .impStr _ _ | .impPsh _ _ | .impSrl _ _
  | .impAdd _ _ | .impAdx _ _ | .impSub _ _ | .impSbx _ _ | .impMul _ _ | .impMli _ _ | .impDiv _ _
  | .impDvi _ _ | .impMod _ _ | .impMdi _ _ | .impInc _ _ | .impAnd _ _ | .impIor _ _ | .impXor _ _
  | .impBic _ _ | .impShl _ _ | .impAsr _ _ | .impShr _ _ | .impRol _ _ | .impRor _ _ | .impTst _ _
  | .impTeq _ _ | .impCmp _ _ | .impCmn _ _ => false

/-- The instructions that supervisor mode gates (R321). -/
def Instr.gated : Instr → Bool
  | .mtc _ _ | .hwi _ | .impMtc _ _ => true
  | .mov _ _ | .mfc _ _ | .str _ _ | .psh _ _ | .loa _ _ | .pop _ _ | .mom _ _ | .srl _ _ | .add _ _
  | .adx _ _ | .sub _ _ | .sbx _ _ | .mul _ _ | .mli _ _ | .div _ _ | .dvi _ _ | .mod _ _ | .mdi _ _
  | .inc _ _ | .gbs _ _ | .and _ _ | .ior _ _ | .xor _ _ | .bic _ _ | .shl _ _ | .asr _ _ | .shr _ _
  | .rol _ _ | .ror _ _ | .tst _ _ | .teq _ _ | .cmp _ _ | .cmn _ _ | .jmp _ | .jlt _ | .jle _ | .jgt _
  | .jge _ | .jeq _ | .jne _ | .swi _ | .ire _ | .impBrk _ _ | .impMov _ _ | .impStr _ _ | .impPsh _ _
  | .impSrl _ _ | .impAdd _ _ | .impAdx _ _ | .impSub _ _ | .impSbx _ _ | .impMul _ _ | .impMli _ _
  | .impDiv _ _ | .impDvi _ _ | .impMod _ _ | .impMdi _ _ | .impInc _ _ | .impAnd _ _ | .impIor _ _
  | .impXor _ _ | .impBic _ _ | .impShl _ _ | .impAsr _ _ | .impShr _ _ | .impRol _ _ | .impRor _ _
  | .impTst _ _ | .impTeq _ _ | .impCmp _ _ | .impCmn _ _ => false

/-- The instructions that raise an interrupt (R302). -/
def Instr.entersInterrupt : Instr → Bool
  | .swi _ | .impBrk _ _ => true
  | .mov _ _ | .mtc _ _ | .mfc _ _ | .str _ _ | .psh _ _ | .loa _ _ | .pop _ _ | .mom _ _ | .srl _ _
  | .add _ _ | .adx _ _ | .sub _ _ | .sbx _ _ | .mul _ _ | .mli _ _ | .div _ _ | .dvi _ _ | .mod _ _
  | .mdi _ _ | .inc _ _ | .gbs _ _ | .and _ _ | .ior _ _ | .xor _ _ | .bic _ _ | .shl _ _ | .asr _ _
  | .shr _ _ | .rol _ _ | .ror _ _ | .tst _ _ | .teq _ _ | .cmp _ _ | .cmn _ _ | .jmp _ | .jlt _
  | .jle _ | .jgt _ | .jge _ | .jeq _ | .jne _ | .hwi _ | .ire _ | .impMov _ _ | .impMtc _ _
  | .impStr _ _ | .impPsh _ _ | .impSrl _ _ | .impAdd _ _ | .impAdx _ _ | .impSub _ _ | .impSbx _ _
  | .impMul _ _ | .impMli _ _ | .impDiv _ _ | .impDvi _ _ | .impMod _ _ | .impMdi _ _ | .impInc _ _
  | .impAnd _ _ | .impIor _ _ | .impXor _ _ | .impBic _ _ | .impShl _ _ | .impAsr _ _ | .impShr _ _
  | .impRol _ _ | .impRor _ _ | .impTst _ _ | .impTeq _ _ | .impCmp _ _ | .impCmn _ _ => false

end Sys2Proof

namespace Sys2Proof.Machine

/-- The outcome is a next state, and that state satisfies `P`. -/
def Completes (out : Out) (P : State → Prop) : Prop := ∃ t, out = .next t ∧ P t

/-- The octet addresses of the word at `a` (R62). -/
def wordSpan (a : Word) : List Nat := [octetAddr a, octetAddr a + 1]

/-- From `s` to `t` only the general registers `ds`, the control registers `cs` and the octets at
`octets` may differ, `n` free values have been drawn, and the environment's side stands. -/
structure Frame (ds : List Reg) (cs : List Creg) (octets : List Nat) (n : Nat) (s t : State) : Prop where
  regs      : ∀ r, r ∉ ds → t.reg r = s.reg r
  ctrl      : ∀ c, c ∉ cs → t.held c = s.held c
  memory    : ∀ a, a ∉ octets → t.mem.octet a = s.mem.octet a
  requests  : t.requests = s.requests
  reactions : t.hwiReactions = s.hwiReactions
  events    : t.hwiEvents = s.hwiEvents
  count     : t.instrCount = s.instrCount
  draws     : t.draws = s.draws + n

/-- An ORD instruction with this ID and these fields: `(b << 11) | (a << 6) | ID` (R92). -/
def EncodedOrd (i : Instr) (id a b : Nat) : Prop :=
  encode i = [BitVec.ofNat 16 ((b <<< 11) ||| (a <<< 6) ||| id)]

/-- A UNA instruction with this ID and operand field: `(c << 6) | ID` (R93). -/
def EncodedUna (i : Instr) (id c : Nat) : Prop := encode i = [BitVec.ofNat 16 ((c <<< 6) ||| id)]

/-- An IMP instruction with this ID, field and second word: `(a << 11) | (ID << 6)`, then n (R94). -/
def EncodedImp (i : Instr) (id a : Nat) (n : Word) : Prop :=
  encode i = [BitVec.ofNat 16 ((a <<< 11) ||| (id <<< 6)), n]

/-- What every step keeps: memory is in canonical form; every event carries a message whose upper six
bits are zero (R283); events stand in program order, at most one an instruction. -/
structure Inv (s : State) : Prop where
  memory   : s.mem.wf = true
  messages : ∀ e ∈ s.hwiEvents, e.message.toNat < 1024
  order    : s.hwiEvents.Pairwise (fun e f => e.position < f.position)
  bounded  : ∀ e ∈ s.hwiEvents, e.position ≤ s.instrCount

/-- The end of a run under a configuration (R345, D33): PC at a `jmp -1` that can be fetched (log 32), and no
interrupt will be taken. -/
def finished (s : State) (p : Config := params) : Bool :=
  decide (s.load s.pc p = 0xfff0#16) && (firstRegion p.platformMap [s.pc]).isNone &&
    (s.ignoring || s.requests.all (fun r => r == none))

/-- No operand is negative, or the quotient is an exact integer, or the divisor is 0 (D10, D13, U12). -/
def exactOrNonNegative (x y : Word) : Bool :=
  (decide (0 ≤ x.toInt) && decide (0 ≤ y.toInt)) || decide (y.toInt ∣ x.toInt) || decide (y = 0#16)

/-- A control register write that names a defined register and sets no reserved bit of FL (U4, U5), or
that is ignored. -/
def controlWriteOk (k : CregSel) (src : Word) (s : State) : Bool :=
  !s.supervisor || (decide (k.idx ≠ .c2) && decide (k.idx ≠ .c3) &&
    (decide (k.idx ≠ .fl) || decide (modeApply k.mode s.fl src &&& 0x3ffe#16 = 0#16)))

/-- What the end of 92_eei_decisions.md and U4, U5, U8, U9, U14, U15, U19, U21 advise a cautious model to refuse is
absent from running `i` on `s`. The model runs those cases by the spec's defaults (log 27); a claim that
must not lean on such a default takes this as a premise. The wrap of PC (D3) shows in the fetch, not here. -/
def cautious (i : Instr) (s : State) : Bool :=
  match i with
  | .adx _ _ | .sbx _ _ | .impAdx _ _ | .impSbx _ _ => decide (s.ex.toNat < 0x8000)
  | .dvi a b => exactOrNonNegative (s.reg a) (s.reg b)
  | .impDvi a n => exactOrNonNegative (s.reg a) n
  | .mdi a b => exactOrNonNegative (s.reg a) (s.reg b) && decide (s.reg b ≠ 0#16)
  | .impMdi a n => exactOrNonNegative (s.reg a) n && decide (n ≠ 0#16)
  | .mod _ b => decide (s.reg b ≠ 0#16)
  | .impMod _ n => decide (n ≠ 0#16)
  | .gbs _ _ => false
  | .shl _ b | .asr _ b | .shr _ b | .rol _ b | .ror _ b => decide ((s.reg b).toNat < 16)
  | .impShl _ n | .impAsr _ n | .impShr _ n | .impRol _ n | .impRor _ n => decide (n.toNat < 16)
  | .psh a b => decide (a ≠ b) && decide (a.val ≠ 0)
  | .pop a b => decide (a ≠ b) && decide (b.val ≠ 0)
  | .mom a b => decide (a ≠ b) && decide (a.val ≠ 0) && decide (b.val ≠ 0)
  | .impPsh a _ => decide (a.val ≠ 0)
  | .srl a b => decide (a ≠ b) || decide (a.val = 0)
  | .mtc k b => controlWriteOk k (s.reg b) s
  | .impMtc k n => controlWriteOk k n s
  | .mfc _ k => decide (k.idx ≠ .c2) && decide (k.idx ≠ .c3)
  | .swi c => decide (c < 0x200)
  | .hwi c => decide (c < 0x200) && !s.supervisor
  | .impBrk a _ => decide (a.val = 0)
  | .mov _ _ | .str _ _ | .loa _ _ | .add _ _ | .sub _ _ | .mul _ _ | .mli _ _ | .div _ _ | .inc _ _
  | .and _ _ | .ior _ _ | .xor _ _ | .bic _ _ | .tst _ _ | .teq _ _ | .cmp _ _ | .cmn _ _ | .jmp _
  | .jlt _ | .jle _ | .jgt _ | .jge _ | .jeq _ | .jne _ | .ire _ | .impMov _ _ | .impStr _ _
  | .impSrl _ _ | .impAdd _ _ | .impSub _ _ | .impMul _ _ | .impMli _ _ | .impDiv _ _ | .impInc _ _
  | .impAnd _ _ | .impIor _ _ | .impXor _ _ | .impBic _ _ | .impTst _ _ | .impTeq _ _ | .impCmp _ _
  | .impCmn _ _ => true

end Sys2Proof.Machine
end

