-- ==== Sys2Proof/Certificates/Slice0/Obligations.lean ====
section
/-! DEFINITION. The statements for the provers. -/

open Sys2Proof Sys2Proof.Machine

/-- What an ORD instruction with first operand `a` and its IMP namesake share: their encodings (R92,
R94), and that each completes with `post` of the second operand's value, x[b] or n (R170). -/
def Sys2Proof.Machine.BothForms (ord : Reg → Instr) (ordId : Nat) (imp : Word → Instr) (impId : Nat)
    (a : Reg) (s : State) (post : Word → State → Prop) : Prop :=
  (∀ b : Reg, EncodedOrd (ord b) ordId a.val b.val ∧ Completes (exec (ord b) s) (post (s.reg b))) ∧
    (∀ n : Word, EncodedImp (imp n) impId a.val n ∧ Completes (exec (imp n) s) (post n))

/-- A jump with this ID and offset: its encoding (R93, R97), and that PC ends at the sum of PC and the
offset when `taken` holds and stays after the jump when it does not; nothing else changes. -/
def Sys2Proof.Machine.JumpsWhen (i : Instr) (id : Nat) (off : Int) (s : State) (taken : Prop) [Decidable taken] :
    Prop :=
  EncodedUna i id (off % 1024).toNat ∧
    Completes (exec i s) fun t =>
      t.pc = (if taken then BitVec.ofInt 16 (s.pc.toNat + off) else s.pc) ∧ Frame [] [.pc] [] 0 s t

/-- From `s` to `t` PC stands, and the next fetch at `t` reads `v` as its first word where `a` is PC, and as its
second word where `a` is the address after PC and the first word is that of an IMP instruction (R77, R95). -/
def Sys2Proof.Machine.FetchSees (s : State) (a v : Word) (t : State) : Prop :=
  t.pc = s.pc ∧ (a = s.pc → (fetch t).first = v) ∧
    (a = s.pc + 1#16 → opcodeOf (t.load t.pc) = 0 → (fetch t).second = v)

/-- For every well-formed instruction and any words after it, the decoder reads exactly that instruction from
its encoding and leaves the words after it; laid out in octets it is read back too. The signedness of the
immediates and the octet order are decisions of the spec (D14, D19, D1; logs 1, 18).
Rests on 30_encoding.md sections 1 to 3; 20_memory.md section 1; 92_eei_decisions.md D1, D14, D19. -/
def Obligations.DecodeInvertsEncode : Prop :=
  ∀ i : Instr, i.wellFormed = true →
    (∀ rest : List Word, decodeWords (encode i ++ rest) = .ok (i, rest)) ∧
      decodeOctets (octetsOfWords (encode i)) = .ok (i, [])

/-- If a first word w (and a second word n) decode to i, then i is well-formed and encoding it gives w, followed
by n exactly when bits 5 to 0 of w are zero. No bit of a word is lost, the unused field and word of brk
included (D29; log 22).
Rests on 30_encoding.md sections 1 to 3; 92_eei_decisions.md D14, D19, D29. -/
def Obligations.EncodeInvertsDecode : Prop :=
  ∀ (w n : Word) (i : Instr), decode w n = .ok i →
    i.wellFormed = true ∧ encode i = if w.toNat % 64 = 0 then [w, n] else [w]

/-- Thirteen words of 95_test_vectors.md, at least one of every family, decode to the instructions listed there.
Rests on 95_test_vectors.md section L2.1; 30_encoding.md section 3. -/
def Obligations.SampleWordsDecode : Prop :=
  decode 0x0481#16 0 = .ok (.mov 18 0) ∧ decode 0x55c2#16 0 = .ok (.mtc ⟨.ior, .fl⟩ 10) ∧
    decode 0x7a83#16 0 = .ok (.mfc 10 ⟨.and, .fl⟩) ∧ decode 0xf847#16 0 = .ok (.pop 1 31) ∧
    decode 0x9a90#16 0 = .ok (.add 10 19) ∧ decode 0xfd9a#16 0 = .ok (.inc 22 (-1)) ∧
    decode 0x5aa5#16 0 = .ok (.asr 10 11) ∧ decode 0x05ab#16 0 = .ok (.cmp 22 0) ∧
    decode 0x0809#16 0 = .ok (.srl 0 1) ∧ decode 0xfe73#16 0 = .ok (.jgt (-7)) ∧
    decode 0x017b#16 0 = .ok (.swi 5) ∧ decode 0xf880#16 0x8000#16 = .ok (.impMtc ⟨.xor, .fl⟩ 0x8000#16) ∧
    decode 0x0940#16 0x0005#16 = .ok (.impSrl 1 0x0005#16)

/-- For every first word: if it decodes, a row of the 74-row table covers it, bears the instruction's mnemonic
and its length; if it does not decode, no row covers it; and at most one row covers it.
Rests on 30_encoding.md section 3 (the sentence on a decoder written from the rows). -/
def Obligations.OpcodeTableAgreesWithDecoder : Prop :=
  ∀ w n : Word,
    (∀ i, decode w n = .ok i →
      ∃ r ∈ opcodeTable, r.covers w = true ∧ r.mnemonic = i.mnemonic ∧ r.words = wordsNeeded w) ∧
    (∀ e, decode w n = .error e → ∀ r ∈ opcodeTable, r.covers w = false) ∧
    (∀ r ∈ opcodeTable, ∀ q ∈ opcodeTable, r.covers w = true → q.covers w = true → r = q)

/-- Decoding fails exactly when the opcode is one of the unassigned ORD or UNA IDs, or the opcode is 0 and the
subopcode is 6 or 7. That such a code has no meaning is decision D24 (log 11).
Rests on 30_encoding.md section 4; 92_eei_decisions.md D24. -/
def Obligations.UnassignedCodesReject : Prop :=
  ∀ w n : Word, (∃ e, decode w n = .error e) ↔
    w.toNat % 64 ∈ [0x0a, 0x0b, 0x0c, 0x0d, 0x0e, 0x0f, 0x1c, 0x1d, 0x1e, 0x1f, 0x2d, 0x2e, 0x2f] ∨
    w.toNat % 64 ∈ [0x37, 0x38, 0x39, 0x3a, 0x3e, 0x3f] ∨
    (w.toNat % 64 = 0 ∧ w.toNat / 64 % 32 ∈ [0x06, 0x07])

/-- Whatever the decoder reads from a list of words, the list is the encoding of the instruction followed by the
words left over, and the encoding has two words exactly when bits 5 to 0 of the first word are zero, one
otherwise.
Formalises R90. -/
def Obligations.LengthIsKnownFromFirstWord : Prop :=
  ∀ (w : Word) (ws : List Word) (i : Instr) (left : List Word), decodeWords (w :: ws) = .ok (i, left) →
    w :: ws = encode i ++ left ∧ (encode i).length = if w.toNat % 64 = 0 then 2 else 1

/-- After MemWrite(a, 1, v), reading cell b gives v if b is a and what it gave before otherwise, for every
state, address and value, and the write changes nothing but memory.
Formalises R65. -/
def Obligations.StoreThenLoad : Prop :=
  ∀ (s : State) (a v b : Word),
    (s.store a v).load b = (if b = a then v else s.load b) ∧ Frame [] [] (wordSpan a) 0 s (s.store a v)

/-- After a store of v at word A, the octet at 2A is bits 15 to 8 of v and the octet at 2A+1 bits 7 to 0; and
any word read is made of those two octets in that order. The order is the spec's decision D1 (log 1).
Rests on 20_memory.md section 1; 92_eei_decisions.md D1. -/
def Obligations.WordsLieMostSignificantOctetFirst : Prop :=
  ∀ (s : State) (a v : Word),
    (s.store a v).mem.octet (2 * a.toNat) = v.extractLsb' 8 8 ∧
    (s.store a v).mem.octet (2 * a.toNat + 1) = v.extractLsb' 0 8 ∧
    s.load a = s.mem.octet (2 * a.toNat) ++ s.mem.octet (2 * a.toNat + 1)

/-- str a, b stores x[b], imp str a, n stores n, at the address x[a]; every register, control register and every
octet outside that word is unchanged. Encodings as the rules give them.
Formalises R150, R155. -/
def Obligations.StrStoresWord : Prop :=
  ∀ (a : Reg) (s : State), BothForms (.str a) 0x04 (.impStr a) 0x03 a s fun y t =>
    t.load (s.reg a) = y ∧ Frame [] [] (wordSpan (s.reg a)) 0 s t

/-- The pointer x[a] goes down by one (r0 stays 0 and the store goes to address 0); the store is at the new
pointer; psh stores x[b] as the first step left it, so the new pointer when b = a; imp psh stores n. Only
x[a] and that word change. The step order is decision D4 (log 19).
Rests on 41_memory_stack.md section introduction and rules of psh, imp psh; 90_conflicts.md C5;
92_eei_decisions.md D4, D5. -/
def Obligations.PshDecrementsThenStores : Prop :=
  ∀ (a : Reg) (s : State),
    (pushPointer a s).reg a = (if a = 0 then 0#16 else s.reg a - 1#16) ∧
    (∀ b : Reg, EncodedOrd (.psh a b) 0x05 a.val b.val ∧ Completes (exec (.psh a b) s) fun t =>
      t.reg a = (pushPointer a s).reg a ∧
      t.load ((pushPointer a s).reg a) = (if b = a then (pushPointer a s).reg a else s.reg b) ∧
      Frame [a] [] (wordSpan ((pushPointer a s).reg a)) 0 s t) ∧
    (∀ n : Word, EncodedImp (.impPsh a n) 0x04 a.val n ∧ Completes (exec (.impPsh a n) s) fun t =>
      t.reg a = (pushPointer a s).reg a ∧ t.load ((pushPointer a s).reg a) = n ∧
      Frame [a] [] (wordSpan ((pushPointer a s).reg a)) 0 s t)

/-- loa a, b puts the word at address x[b] into x[a] (discarded when a is r0); every other register, every
control register and all of memory are unchanged.
Formalises R152. -/
def Obligations.LoaLoadsWord : Prop :=
  ∀ (a b : Reg) (s : State), EncodedOrd (.loa a b) 0x06 a.val b.val ∧ Completes (exec (.loa a b) s) fun t =>
    t.reg a = (if a = 0 then 0#16 else s.load (s.reg b)) ∧ Frame [a] [] [] 0 s t

/-- With a other than b, x[a] takes the word at x[b] and x[b] goes up by one; with a = b the register ends as
the loaded word plus one; a write to r0 is discarded on either side. Memory and everything else are
unchanged. The step order is decision D4 (log 19).
Rests on 41_memory_stack.md rule of pop; 92_eei_decisions.md D4, D5. -/
def Obligations.PopLoadsThenIncrements : Prop :=
  ∀ (a b : Reg) (s : State), EncodedOrd (.pop a b) 0x07 a.val b.val ∧ Completes (exec (.pop a b) s) fun t =>
    (if a = b then t.reg a = (if a = 0 then 0#16 else s.load (s.reg b) + 1#16)
     else t.reg a = (if a = 0 then 0#16 else s.load (s.reg b)) ∧
       t.reg b = (if b = 0 then 0#16 else s.reg b + 1#16)) ∧
    Frame [a, b] [] [] 0 s t

/-- The word at x[b] is stored at x[a]; both registers go up by one (twice when a = b; not at all for r0);
nothing outside the stored word and the two registers changes. The step order is decision D4 (log 19).
Rests on 41_memory_stack.md rule of mom; 92_eei_decisions.md D4, D5. -/
def Obligations.MomCopiesAndSteps : Prop :=
  ∀ (a b : Reg) (s : State), EncodedOrd (.mom a b) 0x08 a.val b.val ∧ Completes (exec (.mom a b) s) fun t =>
    t.load (s.reg a) = s.load (s.reg b) ∧
    (if a = b then t.reg a = (if a = 0 then 0#16 else s.reg a + 2#16)
     else t.reg a = (if a = 0 then 0#16 else s.reg a + 1#16) ∧
       t.reg b = (if b = 0 then 0#16 else s.reg b + 1#16)) ∧
    Frame [a, b] [] (wordSpan (s.reg a)) 0 s t

/-- For any pointer register p other than r0 and registers x, y other than p: after psh p, y and then pop x, p,
x[x] is the old x[y] (0 if x is r0) and x[p] is what it was.
Rests on 41_memory_stack.md section on the stack discipline. -/
def Obligations.PushThenPopRestores : Prop :=
  ∀ (p x y : Reg) (s : State), p ≠ 0 → x ≠ p → y ≠ p →
    Completes (exec (.psh p y) s) fun t => Completes (exec (.pop x p) t) fun u =>
      u.reg x = (if x = 0 then 0#16 else s.reg y) ∧ u.reg p = s.reg p

/-- Every other instruction, interrupt entry and ire among them, leaves every octet of memory as it was.
Rests on 20_memory.md section 2 (the table of memory accesses and the sentence after it). -/
def Obligations.OnlyStoringInstructionsChangeMemory : Prop :=
  ∀ (i : Instr) (s t : State), i.storesMemory = false → exec i s = .next t →
    ∀ a : Nat, t.mem.octet a = s.mem.octet a

/-- After str, imp str, psh, imp psh and mom, PC (already past the instruction) stands, and the next fetch reads
the stored word as its first word where the store was at the address in PC, and as its second word where it
was at the address after PC and the first word is that of an IMP instruction. That no fence is needed is
decision D35 (log 25), the step order of psh and mom D4 (log 19).
Rests on 20_memory.md section 4 (instruction-fetch coherence); 92_eei_decisions.md D4, D35. -/
def Obligations.StoreIsSeenByNextFetch : Prop :=
  ∀ (a : Reg) (s : State),
    (∀ b : Reg, Completes (exec (.str a b) s) (FetchSees s (s.reg a) (s.reg b))) ∧
    (∀ n : Word, Completes (exec (.impStr a n) s) (FetchSees s (s.reg a) n)) ∧
    (∀ b : Reg, Completes (exec (.psh a b) s)
      (FetchSees s ((pushPointer a s).reg a) (if b = a then (pushPointer a s).reg a else s.reg b))) ∧
    (∀ n : Word, Completes (exec (.impPsh a n) s) (FetchSees s ((pushPointer a s).reg a) n)) ∧
    (∀ b : Reg, Completes (exec (.mom a b) s) (FetchSees s (s.reg a) (s.load (s.reg b))))

/-- In every state x[0] is 0x0000 and a write to x[0] changes nothing at all; a write to another register is
read back and leaves the rest alone. That the write is discarded is decision D5 (log 19).
Rests on 10_state.md section 1; 92_eei_decisions.md D5. -/
def Obligations.ZeroRegisterReadsZeroAndDiscards : Prop :=
  ∀ s : State, s.reg 0 = 0x0000#16 ∧ (∀ v, s.setReg 0 v = s) ∧
    ∀ (r q : Reg) (v : Word), r ≠ 0 → (s.setReg r v).reg q = if q = r then v else s.reg q

/-- mov a, b puts x[b], imp mov a, n puts n, into x[a] (discarded when a is r0); EX, FL, every other register
and all of memory are unchanged.
Formalises R131, R134. -/
def Obligations.MovCopiesOrLoadsImmediate : Prop :=
  ∀ (a : Reg) (s : State), BothForms (.mov a) 0x01 (.impMov a) 0x01 a s fun y t =>
    t.reg a = (if a = 0 then 0#16 else y) ∧ Frame [a] [] [] 0 s t

/-- With FL.S = 1 the control register idx takes src, old AND src, old IOR src or old XOR src; PC, EX, IA, IM,
IR and FL are written whole, a write of c2 or c3 changes nothing; no other state changes. The combination
(D20), the reserved registers (D21) and the storage of the FL bits without meaning (D22) are the spec's
decisions (logs 4, 12, 21).
Rests on 40_move.md rules of the access modes, mtc, imp mtc and their destinations; 92_eei_decisions.md D20,
D21, D22, D23. -/
def Obligations.MtcWritesControlRegisterInSupervisorMode : Prop :=
  ∀ (k : CregSel) (s : State), s.supervisor = true →
    (∀ b : Reg, EncodedOrd (.mtc k b) 0x02 (selField k) b.val ∧ Completes (exec (.mtc k b) s) fun t =>
      (if k.idx = .c2 ∨ k.idx = .c3 then t = s
       else t.held k.idx = (match k.mode with
         | .set => s.reg b
         | .and => s.held k.idx &&& s.reg b
         | .ior => s.held k.idx ||| s.reg b
         | .xor => s.held k.idx ^^^ s.reg b)) ∧ Frame [] [k.idx] [] 0 s t) ∧
    (∀ n : Word, EncodedImp (.impMtc k n) 0x02 (selField k) n ∧ Completes (exec (.impMtc k n) s) fun t =>
      (if k.idx = .c2 ∨ k.idx = .c3 then t = s
       else t.held k.idx = (match k.mode with
         | .set => n
         | .and => s.held k.idx &&& n
         | .ior => s.held k.idx ||| n
         | .xor => s.held k.idx ^^^ n)) ∧ Frame [] [k.idx] [] 0 s t)

/-- With FL.S = 0 each of them ends in the very state it started from (PC has already passed the instruction):
no register, no event, no interrupt. The reading of "ignored" is decision D25 (log 21).
Rests on 40_move.md rule on user mode; 46_interrupt_instructions.md rule of hwi; 92_eei_decisions.md D25. -/
def Obligations.UserModeIgnoresMtcAndHwi : Prop :=
  ∀ s : State, s.supervisor = false →
    (∀ k b, exec (.mtc k b) s = .next s) ∧ (∀ k n, exec (.impMtc k n) s = .next s) ∧
    (∀ c, exec (.hwi c) s = .next s)

/-- For every other instruction, flipping FL.S before it changes nothing after it but FL.S: no general register,
memory, control register or other bit of FL, no event, and no part of the environment's side or of the
model's counters.
Rests on 60_exceptions.md section 3 (what supervisor mode gates); 92_eei_decisions.md D36. -/
def Obligations.OtherInstructionsIgnoreTheMode : Prop :=
  ∀ (i : Instr) (s t : State), i.gated = false → (∀ a k, i = .mfc a k → k.idx ≠ .fl) → exec i s = .next t →
    Completes (exec i { s with fl := s.fl ^^^ 0x0001#16 }) fun u =>
      (∀ r, u.reg r = t.reg r) ∧ u.mem = t.mem ∧ (∀ c, c ≠ .fl → u.held c = t.held c) ∧
      u.fl ||| 0x0001#16 = t.fl ||| 0x0001#16 ∧ u.hwiEvents = t.hwiEvents ∧ u.draws = t.draws ∧
      u.requests = t.requests ∧ u.hwiReactions = t.hwiReactions ∧ u.instrCount = t.instrCount

/-- x[a] takes the control register, or x[a] AND, IOR or XOR it, by the access mode (discarded when a is r0), in
either mode; no control register changes. The value read from c2 or c3 is the free value
`Config.cregReserved` of this draw and of what the register holds, combined alike, and only the count of
draws goes up besides. The combination into Ra is decision D20; running on c2 and c3 is the model's choice
(log 4).
Rests on 40_move.md rule of mfc; 10_state.md section 2 (c2 and c3); 92_eei_decisions.md D20, D21. -/
def Obligations.MfcReadsControlRegisterInAnyMode : Prop :=
  ∀ (a : Reg) (k : CregSel) (s : State), EncodedOrd (.mfc a k) 0x03 a.val (selField k) ∧
    Completes (exec (.mfc a k) s) fun t =>
      t.reg a = (if a = 0 then 0#16 else
        match k.mode with
        | .set => s.readCreg k.idx
        | .and => s.reg a &&& s.readCreg k.idx
        | .ior => s.reg a ||| s.readCreg k.idx
        | .xor => s.reg a ^^^ s.readCreg k.idx) ∧
      s.readCreg k.idx =
        (if k.idx = .c2 ∨ k.idx = .c3 then Config.cregReserved s.draws (s.held k.idx) else s.held k.idx) ∧
      Frame [a] [] [] (if k.idx = .c2 ∨ k.idx = .c3 then 1 else 0) s t

/-- x[a] takes A + B modulo 2^16 (discarded when a is r0) and EX takes 1 if A + B is at least 0x10000, else 0,
whatever EX was; nothing else changes.
Formalises R171, R183. -/
def Obligations.AddWritesSumAndCarry : Prop :=
  ∀ (a : Reg) (s : State), BothForms (.add a) 0x10 (.impAdd a) 0x08 a s fun y t =>
    t.reg a = (if a = 0 then 0#16 else BitVec.ofNat 16 ((s.reg a).toNat + y.toNat)) ∧
    t.ex = (if 0x10000 ≤ (s.reg a).toNat + y.toNat then 0x0001#16 else 0x0000#16) ∧
    Frame [a] [.ex] [] 0 s t

/-- x[a] takes A + B + E modulo 2^16 and EX the rest, at most 2, with E the old EX as an unsigned number;
nothing else changes. That EX enters zero-extended is decision D8 (log 13).
Rests on 42_arithmetic.md rules of adx and imp adx; 92_eei_decisions.md D8. -/
def Obligations.AdxAddsUnsignedEx : Prop :=
  ∀ (a : Reg) (s : State), BothForms (.adx a) 0x11 (.impAdx a) 0x09 a s fun y t =>
    t.reg a = (if a = 0 then 0#16 else BitVec.ofNat 16 ((s.reg a).toNat + y.toNat + s.ex.toNat)) ∧
    t.ex.toNat = ((s.reg a).toNat + y.toNat + s.ex.toNat) / 0x10000 ∧ t.ex.toNat ≤ 2 ∧
    Frame [a] [.ex] [] 0 s t

/-- x[a] takes A - B modulo 2^16 (discarded when a is r0) and EX takes 0xffff if A is below B, else 0, whatever
EX was; nothing else changes.
Formalises R173, R185. -/
def Obligations.SubWritesDifferenceAndBorrow : Prop :=
  ∀ (a : Reg) (s : State), BothForms (.sub a) 0x12 (.impSub a) 0x0a a s fun y t =>
    t.reg a = (if a = 0 then 0#16 else s.reg a - y) ∧
    t.ex = (if (s.reg a).toNat < y.toNat then 0xffff#16 else 0x0000#16) ∧ Frame [a] [.ex] [] 0 s t

/-- With r = A - B + E and E the old EX as an unsigned number: x[a] takes r modulo 2^16, EX takes 0xffff if r <
0, 0x0000 if r is 0 to 0xffff, 0x0001 if r is 0x10000 or more; nothing else changes. That EX enters zero-
extended is decision D8 (log 13).
Rests on 42_arithmetic.md rules of sbx and imp sbx; 92_eei_decisions.md D8. -/
def Obligations.SbxAddsUnsignedExToDifference : Prop :=
  ∀ (a : Reg) (s : State), BothForms (.sbx a) 0x13 (.impSbx a) 0x0b a s fun y t =>
    t.reg a = (if a = 0 then 0#16 else BitVec.ofInt 16 (((s.reg a).toNat : Int) - y.toNat + s.ex.toNat)) ∧
    t.ex = (if ((s.reg a).toNat : Int) - y.toNat + s.ex.toNat < 0 then 0xffff#16
            else if ((s.reg a).toNat : Int) - y.toNat + s.ex.toNat ≤ 0xffff then 0x0000#16 else 0x0001#16) ∧
    Frame [a] [.ex] [] 0 s t

/-- For both readings of `EX_ADDEND_EXT` the low half of the 32-bit result of adx and of sbx is the same; the
high half under zero extension is one more, modulo 2^16, than under sign extension if the old EX is at least
0x8000, and the same otherwise.
Rests on 93_implementation_defined.md U16; 92_eei_decisions.md D8. -/
def Obligations.ExAddendReadingsDifferOnlyInEx : Prop :=
  ∀ ex x y : Word,
    loHalf (adx32 .zero ex x y) = loHalf (adx32 .sign ex x y) ∧
    loHalf (sbx32 .zero ex x y) = loHalf (sbx32 .sign ex x y) ∧
    hiHalf (adx32 .zero ex x y) = hiHalf (adx32 .sign ex x y) + (if 0x8000 ≤ ex.toNat then 1#16 else 0#16) ∧
    hiHalf (sbx32 .zero ex x y) = hiHalf (sbx32 .sign ex x y) + (if 0x8000 ≤ ex.toNat then 1#16 else 0#16)

/-- x[a] takes the low half (discarded when a is r0) and EX the high half of A * B, which always fits; nothing
else changes.
Formalises R175, R187. -/
def Obligations.MulWritesUnsignedProduct : Prop :=
  ∀ (a : Reg) (s : State), BothForms (.mul a) 0x14 (.impMul a) 0x0c a s fun y t =>
    t.reg a = (if a = 0 then 0#16 else BitVec.ofNat 16 ((s.reg a).toNat * y.toNat)) ∧
    t.ex.toNat = (s.reg a).toNat * y.toNat / 0x10000 ∧ Frame [a] [.ex] [] 0 s t

/-- The exact signed product is EX, read as signed, times 0x10000 plus the low half; x[a] takes that low half
(discarded when a is r0), which is the low half of the unsigned product; nothing else changes.
Formalises R176, R188. -/
def Obligations.MliWritesSignedProduct : Prop :=
  ∀ (a : Reg) (s : State), BothForms (.mli a) 0x15 (.impMli a) 0x0d a s fun y t =>
    t.reg a = (if a = 0 then 0#16 else BitVec.ofInt 16 ((s.reg a).toInt * y.toInt)) ∧
    BitVec.ofInt 16 ((s.reg a).toInt * y.toInt) = BitVec.ofNat 16 ((s.reg a).toNat * y.toNat) ∧
    t.ex.toInt * 0x10000 + (BitVec.ofInt 16 ((s.reg a).toInt * y.toInt)).toNat = (s.reg a).toInt * y.toInt ∧
    Frame [a] [.ex] [] 0 s t

/-- For a divisor B other than 0, x[a] takes A div B and EX takes ((A mod B) * 65536) div B; for 0, x[a] takes
0xffff, EX the free value of this draw, and the count of draws goes up. Nothing else changes. The fraction
in EX is decision D9 (log 14); EX on a zero divisor is open, D11 (log 6).
Rests on 42_arithmetic.md rules of div and imp div; 92_eei_decisions.md D9, D11. -/
def Obligations.DivWritesFixedPointQuotient : Prop :=
  ∀ (a : Reg) (s : State), BothForms (.div a) 0x16 (.impDiv a) 0x0e a s fun y t =>
    if y = 0#16 then
      t.reg a = (if a = 0 then 0#16 else 0xffff#16) ∧ t.ex = Config.div0Ex s.draws ∧ Frame [a] [.ex] [] 1 s t
    else
      t.reg a = (if a = 0 then 0#16 else BitVec.ofNat 16 ((s.reg a).toNat / y.toNat)) ∧
      t.ex.toNat = (s.reg a).toNat % y.toNat * 65536 / y.toNat ∧ Frame [a] [.ex] [] 0 s t

/-- For a divisor sB other than 0 there is Q, the exact quotient of sA * 65536 by sB rounded toward zero, and
x[a] and EX take bits 31 to 16 and 15 to 0 of Q modulo 2^32; for 0, x[a] takes 0xffff, EX the free value of
this draw, and the count of draws goes up. Nothing else changes. Scaling and rounding are decisions D9, D10
(log 14); EX on a zero divisor is open, D11 (log 6).
Rests on 42_arithmetic.md rules of dvi and imp dvi; 92_eei_decisions.md D9, D10, D11. -/
def Obligations.DviWritesSignedFixedPointQuotient : Prop :=
  ∀ (a : Reg) (s : State), BothForms (.dvi a) 0x17 (.impDvi a) 0x0f a s fun y t =>
    if y = 0#16 then
      t.reg a = (if a = 0 then 0#16 else 0xffff#16) ∧ t.ex = Config.div0Ex s.draws ∧ Frame [a] [.ex] [] 1 s t
    else
      ∃ q : Int, |q * y.toInt| ≤ |(s.reg a).toInt * 65536| ∧
        |(s.reg a).toInt * 65536 - q * y.toInt| < |y.toInt| ∧ 0 ≤ q * y.toInt * (s.reg a).toInt ∧
        t.reg a = (if a = 0 then 0#16 else (BitVec.ofInt 32 q).extractLsb' 16 16) ∧
        t.ex = (BitVec.ofInt 32 q).extractLsb' 0 16 ∧ Frame [a] [.ex] [] 0 s t

/-- x[a] takes A mod B for B other than 0 and 0x0000 for B = 0 (discarded when a is r0); nothing else changes,
EX included. The zero divisor is read literally, decision D12 (log 15). That EX is not written is decision
D6 (log 24).
Rests on 42_arithmetic.md rules of mod and imp mod; 90_conflicts.md C11; 92_eei_decisions.md D6, D12. -/
def Obligations.ModWritesUnsignedRemainder : Prop :=
  ∀ (a : Reg) (s : State), BothForms (.mod a) 0x18 (.impMod a) 0x10 a s fun y t =>
    (t.reg a).toNat = (if a = 0 ∨ y = 0#16 then 0 else (s.reg a).toNat % y.toNat) ∧ Frame [a] [] [] 0 s t

/-- For sB other than 0 (and a other than r0) x[a] ends as r with sA = sB * q + r for some integer q, magnitude
below that of sB, and zero or of the sign of sA; for sB = 0 as 0x0000. Nothing else changes, EX included.
The sign is decision D13, the zero divisor D12 (log 15). That EX is not written is decision D6 (log 24).
Rests on 42_arithmetic.md rules of mdi and imp mdi; 92_eei_decisions.md D6, D12, D13. -/
def Obligations.MdiWritesRemainderWithDividendSign : Prop :=
  ∀ (a : Reg) (s : State), BothForms (.mdi a) 0x19 (.impMdi a) 0x11 a s fun y t =>
    (if a = 0 ∨ y = 0#16 then t.reg a = 0#16
     else ∃ q : Int, (s.reg a).toInt = y.toInt * q + (t.reg a).toInt ∧ |(t.reg a).toInt| < |y.toInt| ∧
       0 ≤ (t.reg a).toInt * (s.reg a).toInt) ∧ Frame [a] [] [] 0 s t

/-- inc a, b adds the signed 5-bit immediate, imp inc a, n adds n, to x[a] modulo 2^16 (discarded when a is r0);
EX and everything else are unchanged. That b is a signed immediate is decision D14 (log 18), that EX is not
written D6 (log 24).
Rests on 42_arithmetic.md rules of inc and imp inc; 91_not_in_source.md N8; 92_eei_decisions.md D6, D14. -/
def Obligations.IncAddsImmediateWithoutEx : Prop :=
  ∀ (a : Reg) (s : State),
    (∀ imm : Int, EncodedOrd (.inc a imm) 0x1a a.val (imm % 32).toNat ∧ Completes (exec (.inc a imm) s) fun t =>
      t.reg a = (if a = 0 then 0#16 else BitVec.ofInt 16 ((s.reg a).toNat + imm)) ∧ Frame [a] [] [] 0 s t) ∧
    (∀ n : Word, EncodedImp (.impInc a n) 0x12 a.val n ∧ Completes (exec (.impInc a n) s) fun t =>
      t.reg a = (if a = 0 then 0#16 else BitVec.ofNat 16 ((s.reg a).toNat + n.toNat)) ∧ Frame [a] [] [] 0 s t)

/-- For x[b] other than 0, x[a] takes the i with 2^i <= x[b] < 2^(i+1) (discarded when a is r0); for 0, the free
value of this draw, and the count of draws goes up. Nothing else changes. That the register is read is
decision D15 (log 16); gbs of 0 is open, D16 (log 7). That EX is not written is decision D6 (log 24).
Rests on 42_arithmetic.md rule of gbs; 92_eei_decisions.md D6, D15, D16. -/
def Obligations.GbsFindsGreatestBitSet : Prop :=
  ∀ (a b : Reg) (s : State), EncodedOrd (.gbs a b) 0x1b a.val b.val ∧ Completes (exec (.gbs a b) s) fun t =>
    if s.reg b = 0#16 then
      t.reg a = (if a = 0 then 0#16 else Config.gbsZero s.draws) ∧ Frame [a] [] [] 1 s t
    else
      ∃ i : Nat, 2 ^ i ≤ (s.reg b).toNat ∧ (s.reg b).toNat < 2 ^ (i + 1) ∧
        t.reg a = (if a = 0 then 0#16 else BitVec.ofNat 16 i) ∧ Frame [a] [] [] 0 s t

/-- Bit j of x[a] becomes the and, or, or exclusive or of bit j of x[a] and bit j of the operand (a write to r0
is discarded); EX and everything else are unchanged. That EX is not written is decision D6 (log 24).
Rests on 43_logic_shift.md rules of and, ior, xor and their IMP forms; 91_not_in_source.md N8;
92_eei_decisions.md D6. -/
def Obligations.LogicIsBitwiseWithoutEx : Prop :=
  ∀ (a : Reg) (s : State),
    (BothForms (.and a) 0x20 (.impAnd a) 0x13 a s fun y t => (∀ j < 16, (t.reg a).getLsbD j =
      (decide (a ≠ 0) && ((s.reg a).getLsbD j && y.getLsbD j))) ∧ Frame [a] [] [] 0 s t) ∧
    (BothForms (.ior a) 0x21 (.impIor a) 0x14 a s fun y t => (∀ j < 16, (t.reg a).getLsbD j =
      (decide (a ≠ 0) && ((s.reg a).getLsbD j || y.getLsbD j))) ∧ Frame [a] [] [] 0 s t) ∧
    (BothForms (.xor a) 0x22 (.impXor a) 0x15 a s fun y t => (∀ j < 16, (t.reg a).getLsbD j =
      (decide (a ≠ 0) && ((s.reg a).getLsbD j ^^ y.getLsbD j))) ∧ Frame [a] [] [] 0 s t)

/-- Bit j of x[a] stays where bit j of the operand is 0 and becomes 0 where it is 1 (a write to r0 is
discarded); EX and everything else are unchanged. That it is the second operand that is inverted is general
knowledge, G3 (log 26). That EX is not written is decision D6 (log 24).
Rests on 43_logic_shift.md rules of bic and imp bic; 92_eei_decisions.md D6; 93_implementation_defined.md
G3. -/
def Obligations.BicClearsTheBitsSetInTheOperand : Prop :=
  ∀ (a : Reg) (s : State), BothForms (.bic a) 0x23 (.impBic a) 0x16 a s fun y t =>
    (∀ j < 16, (t.reg a).getLsbD j = (decide (a ≠ 0) && ((s.reg a).getLsbD j && !y.getLsbD j))) ∧
    Frame [a] [] [] 0 s t

/-- x[a] takes A * 2^B modulo 2^16 (discarded when a is r0) and EX the next 16 bits, for every count B from 0 to
65535; nothing else changes. That the whole count is used is decision D17 (log 17).
Rests on 43_logic_shift.md rules of shl and imp shl; 92_eei_decisions.md D17. -/
def Obligations.ShlSpillsIntoEx : Prop :=
  ∀ (a : Reg) (s : State), BothForms (.shl a) 0x24 (.impShl a) 0x17 a s fun y t =>
    t.reg a = (if a = 0 then 0#16 else BitVec.ofNat 16 ((s.reg a).toNat * 2 ^ y.toNat)) ∧
    t.ex = BitVec.ofNat 16 ((s.reg a).toNat * 2 ^ y.toNat / 65536) ∧ Frame [a] [.ex] [] 0 s t

/-- x[a] takes A div 2^B (discarded when a is r0) and EX the 16 bits below, for every count B from 0 to 65535;
nothing else changes. That the whole count is used is decision D17 (log 17).
Rests on 43_logic_shift.md rules of shr and imp shr; 92_eei_decisions.md D7, D9, D17. -/
def Obligations.ShrSpillsIntoEx : Prop :=
  ∀ (a : Reg) (s : State), BothForms (.shr a) 0x26 (.impShr a) 0x19 a s fun y t =>
    t.reg a = (if a = 0 then 0#16 else BitVec.ofNat 16 ((s.reg a).toNat / 2 ^ y.toNat)) ∧
    t.ex = BitVec.ofNat 16 ((s.reg a).toNat * 65536 / 2 ^ y.toNat) ∧ Frame [a] [.ex] [] 0 s t

/-- x[a] takes the floor of sA / 2^B (discarded when a is r0) and EX the 16 bits below it, for every count B
from 0 to 65535; nothing else changes. That the whole count is used is decision D17 (log 17).
Rests on 43_logic_shift.md rules of asr and imp asr; 92_eei_decisions.md D7, D9, D17. -/
def Obligations.AsrSpillsIntoEx : Prop :=
  ∀ (a : Reg) (s : State), BothForms (.asr a) 0x25 (.impAsr a) 0x18 a s fun y t =>
    t.reg a = (if a = 0 then 0#16 else BitVec.ofInt 16 ((s.reg a).toInt / 2 ^ y.toNat)) ∧
    t.ex = BitVec.ofInt 16 ((s.reg a).toInt * 65536 / 2 ^ y.toNat) ∧ Frame [a] [.ex] [] 0 s t

/-- With r the count modulo 16, bit j of x[a] becomes the old bit j - r (rol) or j + r (ror), modulo 16 (a write
to r0 is discarded); EX and everything else are unchanged. The count modulo 16 is decision D18 (log 17).
That EX is not written is decision D6 (log 24).
Rests on 43_logic_shift.md rules of rol, ror and their IMP forms; 90_conflicts.md C4, C6;
92_eei_decisions.md D6, D18. -/
def Obligations.RotatesMoveBitsRound : Prop :=
  ∀ (a : Reg) (s : State),
    (BothForms (.rol a) 0x27 (.impRol a) 0x1a a s fun y t => (∀ j < 16, (t.reg a).getLsbD j =
      (decide (a ≠ 0) && (s.reg a).getLsbD ((j + 16 - y.toNat % 16) % 16))) ∧ Frame [a] [] [] 0 s t) ∧
    (BothForms (.ror a) 0x28 (.impRor a) 0x1b a s fun y t => (∀ j < 16, (t.reg a).getLsbD j =
      (decide (a ≠ 0) && (s.reg a).getLsbD ((j + y.toNat % 16) % 16))) ∧ Frame [a] [] [] 0 s t)

/-- EX takes Ra and, exclusive-ored with, minus, or plus the second operand, the last two modulo 2^16; no
general register, memory octet or FL bit changes.
Formalises R241, R242, R243, R244, R245, R246, R247, R248. -/
def Obligations.TestsWriteOnlyEx : Prop :=
  ∀ (a : Reg) (s : State),
    (BothForms (.tst a) 0x29 (.impTst a) 0x1c a s fun y t =>
      (∀ j < 16, t.ex.getLsbD j = ((s.reg a).getLsbD j && y.getLsbD j)) ∧ Frame [] [.ex] [] 0 s t) ∧
    (BothForms (.teq a) 0x2a (.impTeq a) 0x1d a s fun y t =>
      (∀ j < 16, t.ex.getLsbD j = ((s.reg a).getLsbD j ^^ y.getLsbD j)) ∧ Frame [] [.ex] [] 0 s t) ∧
    (BothForms (.cmp a) 0x2b (.impCmp a) 0x1e a s fun y t =>
      t.ex = BitVec.ofInt 16 (((s.reg a).toNat : Int) - y.toNat) ∧ Frame [] [.ex] [] 0 s t) ∧
    (BothForms (.cmn a) 0x2c (.impCmn a) 0x1f a s fun y t =>
      t.ex = BitVec.ofNat 16 ((s.reg a).toNat + y.toNat) ∧ Frame [] [.ex] [] 0 s t)

/-- After cmp a, b: jeq is taken exactly when x[a] = x[b] and jne exactly when not; if sA - sB lies in -32768 to
32767, jlt, jle, jgt, jge are taken exactly when sA < sB, <=, >, >=.
Rests on 44_test_compare.md section 3; 92_eei_decisions.md D38. -/
def Obligations.CmpThenJumpDecidesComparison : Prop :=
  ∀ (a b : Reg) (off : Int) (s : State), Completes (exec (.cmp a b) s) fun t =>
    Completes (exec (.jeq off) t) (fun u =>
      u.pc = if s.reg a = s.reg b then BitVec.ofInt 16 (s.pc.toNat + off) else s.pc) ∧
    Completes (exec (.jne off) t) (fun u =>
      u.pc = if s.reg a ≠ s.reg b then BitVec.ofInt 16 (s.pc.toNat + off) else s.pc) ∧
    (-32768 ≤ (s.reg a).toInt - (s.reg b).toInt → (s.reg a).toInt - (s.reg b).toInt ≤ 32767 →
      Completes (exec (.jlt off) t) (fun u =>
        u.pc = if (s.reg a).toInt < (s.reg b).toInt then BitVec.ofInt 16 (s.pc.toNat + off) else s.pc) ∧
      Completes (exec (.jle off) t) (fun u =>
        u.pc = if (s.reg a).toInt ≤ (s.reg b).toInt then BitVec.ofInt 16 (s.pc.toNat + off) else s.pc) ∧
      Completes (exec (.jgt off) t) (fun u =>
        u.pc = if (s.reg b).toInt < (s.reg a).toInt then BitVec.ofInt 16 (s.pc.toNat + off) else s.pc) ∧
      Completes (exec (.jge off) t) (fun u =>
        u.pc = if (s.reg b).toInt ≤ (s.reg a).toInt then BitVec.ofInt 16 (s.pc.toNat + off) else s.pc))

/-- x[a] takes PC, the address after the instruction (discarded when a is r0); PC takes n, or x[b] as the first
step left it, so the return address when b = a and a is not r0. Nothing else changes. The step order is
decision D4 (log 19).
Rests on 45_control_transfer.md rules of srl and imp srl; 92_eei_decisions.md D4. -/
def Obligations.SrlLinksThenJumps : Prop :=
  ∀ (a : Reg) (s : State),
    (∀ b : Reg, EncodedOrd (.srl a b) 0x09 a.val b.val ∧ Completes (exec (.srl a b) s) fun t =>
      t.reg a = (if a = 0 then 0#16 else s.pc) ∧ t.pc = (if b = a ∧ a ≠ 0 then s.pc else s.reg b) ∧
      Frame [a] [.pc] [] 0 s t) ∧
    (∀ n : Word, EncodedImp (.impSrl a n) 0x05 a.val n ∧ Completes (exec (.impSrl a n) s) fun t =>
      t.reg a = (if a = 0 then 0#16 else s.pc) ∧ t.pc = n ∧ Frame [a] [.pc] [] 0 s t)

/-- jmp adds its signed offset to PC modulo 2^16. jlt does so exactly when EX bit 15 is 1, jle when bit 15 is 1
or EX is 0, jgt when bit 15 is 0 and EX is not 0, jge when bit 15 is 0, jeq when EX is 0, jne when it is
not; otherwise PC stays at the next instruction. Nothing else changes, EX included. That PC already points
past the jump, so that a raw encoding counts its offset from there, is decision D2, the wrap D3 (log 20);
the signed offset is D19 (log 18), the signed reading of EX D38 and that a jump does not write EX D6 (log
24).
Rests on 45_control_transfer.md rules of the seven jumps and of the reading of EX; 91_not_in_source.md N32;
92_eei_decisions.md D2, D3, D6, D19, D38. -/
def Obligations.JumpsFollowTheConditionInEx : Prop :=
  ∀ (off : Int) (s : State),
    JumpsWhen (.jmp off) 0x30 off s True ∧
    JumpsWhen (.jlt off) 0x31 off s (s.ex.getLsbD 15 = true) ∧
    JumpsWhen (.jle off) 0x32 off s (s.ex.getLsbD 15 = true ∨ s.ex = 0x0000#16) ∧
    JumpsWhen (.jgt off) 0x33 off s (s.ex.getLsbD 15 = false ∧ s.ex ≠ 0x0000#16) ∧
    JumpsWhen (.jge off) 0x34 off s (s.ex.getLsbD 15 = false) ∧
    JumpsWhen (.jeq off) 0x35 off s (s.ex = 0x0000#16) ∧
    JumpsWhen (.jne off) 0x36 off s (s.ex ≠ 0x0000#16)

/-- IR takes PC, PC takes IA, IM takes c zero-extended, FL gains I and S and keeps H and every other bit;
nothing else changes. That FL.I does not mask it is decision D36, the zero extension D19 (logs 18, 23).
Rests on 46_interrupt_instructions.md rule of swi; 60_exceptions.md section 2; 92_eei_decisions.md D19, D36. -/
def Obligations.SwiEntersTheHandler : Prop :=
  ∀ (c : Nat) (s : State), EncodedUna (.swi c) 0x3b c ∧ Completes (exec (.swi c) s) fun t =>
    t.ir = s.pc ∧ t.pc = s.ia ∧ t.im = BitVec.ofNat 16 c ∧
    (∀ j < 16, t.fl.getLsbD j = (s.fl.getLsbD j || decide (j = 15 ∨ j = 0))) ∧
    Frame [] [.pc, .im, .ir, .fl] [] 0 s t

/-- IR takes PC, PC takes IA, IM takes 0xffff, FL gains I and S and keeps H and every other bit; nothing else
changes; field a and the second word make no difference. All of it beyond IR is decision D29 (log 22).
Rests on 46_interrupt_instructions.md rule of imp brk; 30_encoding.md section 4; 92_eei_decisions.md D29. -/
def Obligations.BrkEntersTheHandlerWithMessageFFFF : Prop :=
  ∀ (a : Reg) (n : Word) (s : State), EncodedImp (.impBrk a n) 0x00 a.val n ∧
    exec (.impBrk a n) s = exec (.impBrk 0 0#16) s ∧ Completes (exec (.impBrk a n) s) fun t =>
      t.ir = s.pc ∧ t.pc = s.ia ∧ t.im = 0xffff#16 ∧
      (∀ j < 16, t.fl.getLsbD j = (s.fl.getLsbD j || decide (j = 15 ∨ j = 0))) ∧
      Frame [] [.pc, .im, .ir, .fl] [] 0 s t

/-- PC takes IR; FL loses I, and S too when c is not 0, and keeps H and every other bit; IR, IM, EX, the
registers and memory are unchanged. That it runs in any mode is decision D36, that H stays D31 (log 23).
Rests on 46_interrupt_instructions.md rule of ire; 60_exceptions.md section 2; 92_eei_decisions.md D31, D36. -/
def Obligations.IreReturnsAndChoosesTheMode : Prop :=
  ∀ (c : Nat) (s : State), EncodedUna (.ire c) 0x3d c ∧ Completes (exec (.ire c) s) fun t =>
    t.pc = s.ir ∧
    (∀ j < 16, t.fl.getLsbD j = (s.fl.getLsbD j && !decide (j = 15 ∨ (j = 0 ∧ c ≠ 0)))) ∧
    Frame [] [.pc, .fl] [] 0 s t

/-- With FL.S = 1 the event with message c zero-extended and the number of instructions fetched so far joins the
end of the history; every other part of the state is unchanged. The outgoing-event reading is decision D30
(log 9), the zero extension D19 (log 18). That the position is the count of instructions fetched is the
model's own choice (log 28): the rule of the event asks only for a position in program order.
Rests on 46_interrupt_instructions.md rules of hwi and its event; 92_eei_decisions.md D19, D30. -/
def Obligations.HwiEmitsItsEventInSupervisorMode : Prop :=
  ∀ (c : Nat) (s : State), s.supervisor = true → EncodedUna (.hwi c) 0x3c c ∧ Completes (exec (.hwi c) s) fun t =>
    t.hwiEvents = s.hwiEvents ++ [⟨BitVec.ofNat 16 c, s.instrCount⟩] ∧
    { t with hwiEvents := s.hwiEvents } = s

/-- IR takes PC (the instruction not executed), PC takes IA, IM the message, FL gains I, H and S; the request is
used up; no register, EX, memory, event or count changes. The entry sequence is decision D26, the place in
the stream D28; requests as data of the state are the model's form (log 8).
Rests on 60_exceptions.md sections 1 and 2; 92_eei_decisions.md D26, D28, D37. -/
def Obligations.HardwareInterruptIsTakenBetweenInstructions : Prop :=
  ∀ (m : Word) (later : List (Option Word)) (s : State), s.requests = some m :: later → s.fl.getLsbD 15 = false →
    Completes (step s) fun t =>
      t.ir = s.pc ∧ t.pc = s.ia ∧ t.im = m ∧ t.requests = later ∧
      (∀ j < 16, t.fl.getLsbD j = (s.fl.getLsbD j || decide (j = 15 ∨ j = 14 ∨ j = 0))) ∧
      (∀ r, t.reg r = s.reg r) ∧ t.mem = s.mem ∧ t.ex = s.ex ∧ t.c2 = s.c2 ∧ t.c3 = s.c3 ∧ t.ia = s.ia ∧
      t.hwiReactions = s.hwiReactions ∧ t.hwiEvents = s.hwiEvents ∧ t.instrCount = s.instrCount ∧
      t.draws = s.draws

/-- With FL.I = 1, a step with a request presented is the step with none presented: the core keeps no pending
bit (D27; log 8).
Rests on 60_exceptions.md section 1 (masking); 92_eei_decisions.md D27. -/
def Obligations.MaskedRequestIsIgnored : Prop :=
  ∀ (r : Option Word) (later : List (Option Word)) (s : State), s.requests = r :: later → s.fl.getLsbD 15 = true →
    step s = step { s with requests := none :: later } ∧
    ∀ t, step s = .next t → t.instrCount = s.instrCount + 1

/-- If no request is accepted and the words at PC decode to i, the step is exec of i on the state with PC past
the words of i (modulo 2^16), the request entry used up and one more instruction counted, followed by the
platform's reaction to an event it emitted; with no reaction scripted it is exactly exec of i on that state.
The order of PC is decision D2, the reaction script the model's form of D30 (logs 9, 20).
Rests on 30_encoding.md section 1 (fetch and decode); 60_exceptions.md section 1 (the step);
92_eei_decisions.md D2, D3, D28, D30. -/
def Obligations.StepRunsTheDecodedInstruction : Prop :=
  ∀ (i : Instr) (s : State), acceptedRequest s = none →
    decode (s.load s.pc) (s.load (s.pc + 1#16)) = .ok i →
    step s = afterExec
        { s with requests := s.requests.tail, pc := s.pc + BitVec.ofNat 16 (encode i).length,
                 instrCount := s.instrCount + 1 }
        (exec i { s with requests := s.requests.tail, pc := s.pc + BitVec.ofNat 16 (encode i).length,
                         instrCount := s.instrCount + 1 }) ∧
    (s.hwiReactions = [] → step s = exec i
        { s with requests := s.requests.tail, pc := s.pc + BitVec.ofNat 16 (encode i).length,
                 instrCount := s.instrCount + 1 })

/-- No step is refused. A step faults with unassignedOpcode exactly when no request is accepted and the words at
PC do not decode, and names the word at PC. It faults with platformStop exactly when no request is accepted,
the words at PC decode to an hwi, FL.S = 1, and the script's next reaction has a stop among its acts. That
unassigned codes fault is decision D24 (log 11), that the core has no fault of its own D40; that the
platform may stop the machine after an hwi is D30, and the script is the model's form of it (log 9).
Rests on 30_encoding.md section 4; 46_interrupt_instructions.md rules of hwi and its event; 60_exceptions.md
section 1; 92_eei_decisions.md D24, D30, D40. -/
def Obligations.StepStopsOnlyOnUnassignedCodesOrScriptedStops : Prop :=
  ∀ s : State, (∀ r, step s ≠ .refused r) ∧
    (∀ w, step s = .fault (.unassignedOpcode w) ↔ acceptedRequest s = none ∧ w = s.load s.pc ∧
      ∃ e, decode (s.load s.pc) (s.load (s.pc + 1#16)) = .error e) ∧
    (step s = .fault .platformStop ↔ acceptedRequest s = none ∧ s.supervisor = true ∧
      (∃ c, decode (s.load s.pc) (s.load (s.pc + 1#16)) = .ok (.hwi c)) ∧
      ∃ acts later, s.hwiReactions = acts :: later ∧ .stop ∈ acts)

/-- From every state that satisfies the invariant, whatever the environment requests and however it reacts, a
next state satisfies it: memory is in canonical form inside the 0x20000 octets, every event's message has
its upper six bits zero, and events stand at rising positions not beyond the instructions fetched. The
canonical form and the position are the model's (logs 1, 28).
Rests on 46_interrupt_instructions.md rule of the hwi event; 20_memory.md section 1; 92_eei_decisions.md
D30. -/
def Obligations.StepKeepsMachineInvariant : Prop :=
  ∀ s t : State, Inv s → step s = .next t → Inv t

/-- State.reset satisfies Inv.
Rests on 10_state.md section 5; 92_eei_decisions.md D32. -/
def Obligations.ResetSatisfiesMachineInvariant : Prop :=
  Inv State.reset

/-- PC = 0x0000 and FL = 0x0001 are the spec's own defaults (D32; log 5); r0 is zero by the source; the other
registers and memory read zero by the model's choice (logs 2, 3, 4).
Rests on 10_state.md section 5; 92_eei_decisions.md D32. -/
def Obligations.ResetStateHasTheNamedValues : Prop :=
  State.reset.pc = 0x0000#16 ∧ State.reset.fl = 0x0001#16 ∧ State.reset.supervisor = true ∧
    State.reset.ignoring = false ∧ State.reset.hwMark = false ∧ (∀ r, State.reset.reg r = 0#16) ∧
    (∀ c, c ≠ .fl → State.reset.held c = 0#16) ∧ ∀ a, State.reset.load a = 0#16

/-- Every instruction outside the list, and mtc or imp mtc to another register, leaves EX as it was. The list is
decision D6 (log 24).
Rests on 10_state.md section 3; 92_eei_decisions.md D6. -/
def Obligations.OnlyListedInstructionsWriteEx : Prop :=
  ∀ (i : Instr) (s t : State), i.computesEx = false → (∀ k b, i = .mtc k b → k.idx ≠ .ex) →
    (∀ k n, i = .impMtc k n → k.idx ≠ .ex) → exec i s = .next t → t.ex = s.ex

/-- Every other instruction leaves FL as it was; every instruction but mtc and imp mtc leaves bits 14 to 1 as
they were. That H is cleared only by mtc is decision D31, the storage of bits 13 to 1 D22 (logs 12, 23).
Rests on 10_state.md section 2 (FL); 92_eei_decisions.md D22, D31. -/
def Obligations.OnlyListedInstructionsWriteFl : Prop :=
  ∀ (i : Instr) (s t : State), exec i s = .next t →
    (i.mayWriteFl = false → t.fl = s.fl) ∧
    ((∀ k b, i ≠ .mtc k b) → (∀ k n, i ≠ .impMtc k n) →
      ∀ j, 1 ≤ j → j ≤ 14 → t.fl.getLsbD j = s.fl.getLsbD j)

/-- From FL.S = 0, every instruction but swi and imp brk leaves S at 0 and IM and IR as they were; every
instruction leaves IA as it was; and swi and imp brk end in supervisor mode at the address in IA, by the
entry of 60_exceptions.md section 2. That imp brk enters as swi does is decision D29 (log 22), that neither
is masked or gated and that ire runs in any mode D36 (log 23), that mtc and hwi do nothing D25 (log 21).
Rests on 46_interrupt_instructions.md rules of swi and imp brk; 60_exceptions.md sections 2, 3;
92_eei_decisions.md D25, D29, D36. -/
def Obligations.UserModeLeavesOnlyThroughAnInterrupt : Prop :=
  ∀ (i : Instr) (s t : State), s.supervisor = false → exec i s = .next t →
    t.ia = s.ia ∧ (i.entersInterrupt = false → t.supervisor = false ∧ t.im = s.im ∧ t.ir = s.ir) ∧
    (i.entersInterrupt = true → t.supervisor = true ∧ t.pc = s.ia)

/-- For every configuration p with the default octet order and EX after a division by zero: an instruction on a
state for which `cautious` holds has the same outcome under p as under the defaults; with the default
platform map and treatment of unassigned codes besides, so does a step, if `cautious` holds for the
instruction at PC. So such runs depend on no choice among EX_ADDEND_EXT, DVI_ROUND, MDI_SIGN, GBS_SRC,
GBS_ZERO, SHIFT_COUNT, ROT_COUNT, UNA_MSG_EXT, CREG_RESERVED and FL_RESERVED (logs 4, 7, 12 to 18), while
another PLATFORM_MAP or UNASSIGNED_OP may make a step refuse (logs 11, 32). That a read of FL is the same
under either FL_RESERVED is the model's choice (log 12). `cautious` is the model's rendering of the list
(log 27), the parameters as fields log 31.
Rests on 00_scope.md section 4; 10_state.md section 4; 92_eei_decisions.md the list of decisions a cautious
model should turn into refusals; 93_implementation_defined.md U4, U5, U8, U9, U16, U20, U21. -/
def Obligations.CautiousRunsDependOnNoOtherParameter : Prop :=
  ∀ p : Config, p.octetOrder = params.octetOrder → p.divZeroEx = params.divZeroEx →
    (∀ (i : Instr) (s : State), cautious i s = true → execWith p i s = exec i s) ∧
    (p.platformMap = [] → p.unassignedOp = .fault → ∀ s : State,
      (∀ i, decode (s.load s.pc) (s.load (s.pc + 1#16)) = .ok i →
        cautious i (fetch (consumeRequest s)).state = true) →
      stepWith p s = step s)
end

