-- ==== Sys2Proof/Laws/State.lean ====
section
/-! SUPPORT. One lemma per field of State for each update of it, and what register, memory and control
register reads see after an update. -/

namespace Sys2Proof.Machine

/-! `setReg`. -/

theorem setReg_regs (s : State) (r : Reg) (v : Word) : (s.setReg r v).regs =
    if r.val = 0 then s.regs else s.regs.set (r.val - 1) v (by have := r.isLt; omega) := rfl
@[simp] theorem setReg_pc (s : State) (r : Reg) (v : Word) : (s.setReg r v).pc = s.pc := rfl
@[simp] theorem setReg_ex (s : State) (r : Reg) (v : Word) : (s.setReg r v).ex = s.ex := rfl
@[simp] theorem setReg_c2 (s : State) (r : Reg) (v : Word) : (s.setReg r v).c2 = s.c2 := rfl
@[simp] theorem setReg_c3 (s : State) (r : Reg) (v : Word) : (s.setReg r v).c3 = s.c3 := rfl
@[simp] theorem setReg_ia (s : State) (r : Reg) (v : Word) : (s.setReg r v).ia = s.ia := rfl
@[simp] theorem setReg_im (s : State) (r : Reg) (v : Word) : (s.setReg r v).im = s.im := rfl
@[simp] theorem setReg_ir (s : State) (r : Reg) (v : Word) : (s.setReg r v).ir = s.ir := rfl
@[simp] theorem setReg_fl (s : State) (r : Reg) (v : Word) : (s.setReg r v).fl = s.fl := rfl
@[simp] theorem setReg_mem (s : State) (r : Reg) (v : Word) : (s.setReg r v).mem = s.mem := rfl
@[simp] theorem setReg_requests (s : State) (r : Reg) (v : Word) : (s.setReg r v).requests = s.requests := rfl
@[simp] theorem setReg_hwiReactions (s : State) (r : Reg) (v : Word) : (s.setReg r v).hwiReactions = s.hwiReactions := rfl
@[simp] theorem setReg_hwiEvents (s : State) (r : Reg) (v : Word) : (s.setReg r v).hwiEvents = s.hwiEvents := rfl
@[simp] theorem setReg_instrCount (s : State) (r : Reg) (v : Word) : (s.setReg r v).instrCount = s.instrCount := rfl
@[simp] theorem setReg_draws (s : State) (r : Reg) (v : Word) : (s.setReg r v).draws = s.draws := rfl
@[simp] theorem setReg_load (s : State) (r : Reg) (v : Word) (q : Word) (p : Config) : (s.setReg r v).load q p = s.load q p := rfl

/-! `setPc`. -/

@[simp] theorem setPc_regs (s : State) (v : Word) : (s.setPc v).regs = s.regs := rfl
@[simp] theorem setPc_pc (s : State) (v : Word) : (s.setPc v).pc = v := rfl
@[simp] theorem setPc_ex (s : State) (v : Word) : (s.setPc v).ex = s.ex := rfl
@[simp] theorem setPc_c2 (s : State) (v : Word) : (s.setPc v).c2 = s.c2 := rfl
@[simp] theorem setPc_c3 (s : State) (v : Word) : (s.setPc v).c3 = s.c3 := rfl
@[simp] theorem setPc_ia (s : State) (v : Word) : (s.setPc v).ia = s.ia := rfl
@[simp] theorem setPc_im (s : State) (v : Word) : (s.setPc v).im = s.im := rfl
@[simp] theorem setPc_ir (s : State) (v : Word) : (s.setPc v).ir = s.ir := rfl
@[simp] theorem setPc_fl (s : State) (v : Word) : (s.setPc v).fl = s.fl := rfl
@[simp] theorem setPc_mem (s : State) (v : Word) : (s.setPc v).mem = s.mem := rfl
@[simp] theorem setPc_requests (s : State) (v : Word) : (s.setPc v).requests = s.requests := rfl
@[simp] theorem setPc_hwiReactions (s : State) (v : Word) : (s.setPc v).hwiReactions = s.hwiReactions := rfl
@[simp] theorem setPc_hwiEvents (s : State) (v : Word) : (s.setPc v).hwiEvents = s.hwiEvents := rfl
@[simp] theorem setPc_instrCount (s : State) (v : Word) : (s.setPc v).instrCount = s.instrCount := rfl
@[simp] theorem setPc_draws (s : State) (v : Word) : (s.setPc v).draws = s.draws := rfl
@[simp] theorem setPc_reg (s : State) (v : Word) (q : Reg) : (s.setPc v).reg q = s.reg q := rfl
@[simp] theorem setPc_load (s : State) (v : Word) (q : Word) (p : Config) : (s.setPc v).load q p = s.load q p := rfl

/-! `setEx`. -/

@[simp] theorem setEx_regs (s : State) (v : Word) : (s.setEx v).regs = s.regs := rfl
@[simp] theorem setEx_pc (s : State) (v : Word) : (s.setEx v).pc = s.pc := rfl
@[simp] theorem setEx_ex (s : State) (v : Word) : (s.setEx v).ex = v := rfl
@[simp] theorem setEx_c2 (s : State) (v : Word) : (s.setEx v).c2 = s.c2 := rfl
@[simp] theorem setEx_c3 (s : State) (v : Word) : (s.setEx v).c3 = s.c3 := rfl
@[simp] theorem setEx_ia (s : State) (v : Word) : (s.setEx v).ia = s.ia := rfl
@[simp] theorem setEx_im (s : State) (v : Word) : (s.setEx v).im = s.im := rfl
@[simp] theorem setEx_ir (s : State) (v : Word) : (s.setEx v).ir = s.ir := rfl
@[simp] theorem setEx_fl (s : State) (v : Word) : (s.setEx v).fl = s.fl := rfl
@[simp] theorem setEx_mem (s : State) (v : Word) : (s.setEx v).mem = s.mem := rfl
@[simp] theorem setEx_requests (s : State) (v : Word) : (s.setEx v).requests = s.requests := rfl
@[simp] theorem setEx_hwiReactions (s : State) (v : Word) : (s.setEx v).hwiReactions = s.hwiReactions := rfl
@[simp] theorem setEx_hwiEvents (s : State) (v : Word) : (s.setEx v).hwiEvents = s.hwiEvents := rfl
@[simp] theorem setEx_instrCount (s : State) (v : Word) : (s.setEx v).instrCount = s.instrCount := rfl
@[simp] theorem setEx_draws (s : State) (v : Word) : (s.setEx v).draws = s.draws := rfl
@[simp] theorem setEx_reg (s : State) (v : Word) (q : Reg) : (s.setEx v).reg q = s.reg q := rfl
@[simp] theorem setEx_load (s : State) (v : Word) (q : Word) (p : Config) : (s.setEx v).load q p = s.load q p := rfl

/-! `drawn`. -/

@[simp] theorem drawn_regs (s : State) : (s.drawn).regs = s.regs := rfl
@[simp] theorem drawn_pc (s : State) : (s.drawn).pc = s.pc := rfl
@[simp] theorem drawn_ex (s : State) : (s.drawn).ex = s.ex := rfl
@[simp] theorem drawn_c2 (s : State) : (s.drawn).c2 = s.c2 := rfl
@[simp] theorem drawn_c3 (s : State) : (s.drawn).c3 = s.c3 := rfl
@[simp] theorem drawn_ia (s : State) : (s.drawn).ia = s.ia := rfl
@[simp] theorem drawn_im (s : State) : (s.drawn).im = s.im := rfl
@[simp] theorem drawn_ir (s : State) : (s.drawn).ir = s.ir := rfl
@[simp] theorem drawn_fl (s : State) : (s.drawn).fl = s.fl := rfl
@[simp] theorem drawn_mem (s : State) : (s.drawn).mem = s.mem := rfl
@[simp] theorem drawn_requests (s : State) : (s.drawn).requests = s.requests := rfl
@[simp] theorem drawn_hwiReactions (s : State) : (s.drawn).hwiReactions = s.hwiReactions := rfl
@[simp] theorem drawn_hwiEvents (s : State) : (s.drawn).hwiEvents = s.hwiEvents := rfl
@[simp] theorem drawn_instrCount (s : State) : (s.drawn).instrCount = s.instrCount := rfl
@[simp] theorem drawn_draws (s : State) : (s.drawn).draws = s.draws + 1 := rfl
@[simp] theorem drawn_reg (s : State) (q : Reg) : (s.drawn).reg q = s.reg q := rfl
@[simp] theorem drawn_load (s : State) (q : Word) (p : Config) : (s.drawn).load q p = s.load q p := rfl

/-! `store`. -/

@[simp] theorem store_regs (s : State) (a v : Word) (p : Config) : (s.store a v p).regs = s.regs := rfl
@[simp] theorem store_pc (s : State) (a v : Word) (p : Config) : (s.store a v p).pc = s.pc := rfl
@[simp] theorem store_ex (s : State) (a v : Word) (p : Config) : (s.store a v p).ex = s.ex := rfl
@[simp] theorem store_c2 (s : State) (a v : Word) (p : Config) : (s.store a v p).c2 = s.c2 := rfl
@[simp] theorem store_c3 (s : State) (a v : Word) (p : Config) : (s.store a v p).c3 = s.c3 := rfl
@[simp] theorem store_ia (s : State) (a v : Word) (p : Config) : (s.store a v p).ia = s.ia := rfl
@[simp] theorem store_im (s : State) (a v : Word) (p : Config) : (s.store a v p).im = s.im := rfl
@[simp] theorem store_ir (s : State) (a v : Word) (p : Config) : (s.store a v p).ir = s.ir := rfl
@[simp] theorem store_fl (s : State) (a v : Word) (p : Config) : (s.store a v p).fl = s.fl := rfl
@[simp] theorem store_mem (s : State) (a v : Word) (p : Config) : (s.store a v p).mem = Memory.putWord s.mem a v p.octetOrder := rfl
@[simp] theorem store_requests (s : State) (a v : Word) (p : Config) : (s.store a v p).requests = s.requests := rfl
@[simp] theorem store_hwiReactions (s : State) (a v : Word) (p : Config) : (s.store a v p).hwiReactions = s.hwiReactions := rfl
@[simp] theorem store_hwiEvents (s : State) (a v : Word) (p : Config) : (s.store a v p).hwiEvents = s.hwiEvents := rfl
@[simp] theorem store_instrCount (s : State) (a v : Word) (p : Config) : (s.store a v p).instrCount = s.instrCount := rfl
@[simp] theorem store_draws (s : State) (a v : Word) (p : Config) : (s.store a v p).draws = s.draws := rfl
@[simp] theorem store_reg (s : State) (a v : Word) (p : Config) (q : Reg) : (s.store a v p).reg q = s.reg q := rfl

/-! `raiseInterrupt`. -/

@[simp] theorem raiseInterrupt_regs (s : State) (k : IntKind) (m : Word) : (raiseInterrupt k m s).regs = s.regs := rfl
@[simp] theorem raiseInterrupt_pc (s : State) (k : IntKind) (m : Word) : (raiseInterrupt k m s).pc = s.ia := rfl
@[simp] theorem raiseInterrupt_ex (s : State) (k : IntKind) (m : Word) : (raiseInterrupt k m s).ex = s.ex := rfl
@[simp] theorem raiseInterrupt_c2 (s : State) (k : IntKind) (m : Word) : (raiseInterrupt k m s).c2 = s.c2 := rfl
@[simp] theorem raiseInterrupt_c3 (s : State) (k : IntKind) (m : Word) : (raiseInterrupt k m s).c3 = s.c3 := rfl
@[simp] theorem raiseInterrupt_ia (s : State) (k : IntKind) (m : Word) : (raiseInterrupt k m s).ia = s.ia := rfl
@[simp] theorem raiseInterrupt_im (s : State) (k : IntKind) (m : Word) : (raiseInterrupt k m s).im = m := rfl
@[simp] theorem raiseInterrupt_ir (s : State) (k : IntKind) (m : Word) : (raiseInterrupt k m s).ir = s.pc := rfl
@[simp] theorem raiseInterrupt_fl (s : State) (k : IntKind) (m : Word) : (raiseInterrupt k m s).fl = entryFl k s.fl := rfl
@[simp] theorem raiseInterrupt_mem (s : State) (k : IntKind) (m : Word) : (raiseInterrupt k m s).mem = s.mem := rfl
@[simp] theorem raiseInterrupt_requests (s : State) (k : IntKind) (m : Word) : (raiseInterrupt k m s).requests = s.requests := rfl
@[simp] theorem raiseInterrupt_hwiReactions (s : State) (k : IntKind) (m : Word) : (raiseInterrupt k m s).hwiReactions = s.hwiReactions := rfl
@[simp] theorem raiseInterrupt_hwiEvents (s : State) (k : IntKind) (m : Word) : (raiseInterrupt k m s).hwiEvents = s.hwiEvents := rfl
@[simp] theorem raiseInterrupt_instrCount (s : State) (k : IntKind) (m : Word) : (raiseInterrupt k m s).instrCount = s.instrCount := rfl
@[simp] theorem raiseInterrupt_draws (s : State) (k : IntKind) (m : Word) : (raiseInterrupt k m s).draws = s.draws := rfl
@[simp] theorem raiseInterrupt_reg (s : State) (k : IntKind) (m : Word) (q : Reg) : (raiseInterrupt k m s).reg q = s.reg q := rfl
@[simp] theorem raiseInterrupt_load (s : State) (k : IntKind) (m : Word) (q : Word) (p : Config) : (raiseInterrupt k m s).load q p = s.load q p := rfl

/-! `returnFromInterrupt`. -/

@[simp] theorem returnFromInterrupt_regs (s : State) (u : Bool) : (returnFromInterrupt u s).regs = s.regs := rfl
@[simp] theorem returnFromInterrupt_pc (s : State) (u : Bool) : (returnFromInterrupt u s).pc = s.ir := rfl
@[simp] theorem returnFromInterrupt_ex (s : State) (u : Bool) : (returnFromInterrupt u s).ex = s.ex := rfl
@[simp] theorem returnFromInterrupt_c2 (s : State) (u : Bool) : (returnFromInterrupt u s).c2 = s.c2 := rfl
@[simp] theorem returnFromInterrupt_c3 (s : State) (u : Bool) : (returnFromInterrupt u s).c3 = s.c3 := rfl
@[simp] theorem returnFromInterrupt_ia (s : State) (u : Bool) : (returnFromInterrupt u s).ia = s.ia := rfl
@[simp] theorem returnFromInterrupt_im (s : State) (u : Bool) : (returnFromInterrupt u s).im = s.im := rfl
@[simp] theorem returnFromInterrupt_ir (s : State) (u : Bool) : (returnFromInterrupt u s).ir = s.ir := rfl
@[simp] theorem returnFromInterrupt_fl (s : State) (u : Bool) : (returnFromInterrupt u s).fl = returnFl u s.fl := rfl
@[simp] theorem returnFromInterrupt_mem (s : State) (u : Bool) : (returnFromInterrupt u s).mem = s.mem := rfl
@[simp] theorem returnFromInterrupt_requests (s : State) (u : Bool) : (returnFromInterrupt u s).requests = s.requests := rfl
@[simp] theorem returnFromInterrupt_hwiReactions (s : State) (u : Bool) : (returnFromInterrupt u s).hwiReactions = s.hwiReactions := rfl
@[simp] theorem returnFromInterrupt_hwiEvents (s : State) (u : Bool) : (returnFromInterrupt u s).hwiEvents = s.hwiEvents := rfl
@[simp] theorem returnFromInterrupt_instrCount (s : State) (u : Bool) : (returnFromInterrupt u s).instrCount = s.instrCount := rfl
@[simp] theorem returnFromInterrupt_draws (s : State) (u : Bool) : (returnFromInterrupt u s).draws = s.draws := rfl
@[simp] theorem returnFromInterrupt_reg (s : State) (u : Bool) (q : Reg) : (returnFromInterrupt u s).reg q = s.reg q := rfl
@[simp] theorem returnFromInterrupt_load (s : State) (u : Bool) (q : Word) (p : Config) : (returnFromInterrupt u s).load q p = s.load q p := rfl

/-! `emitHwi`. -/

@[simp] theorem emitHwi_regs (s : State) (m : Word) : (emitHwi m s).regs = s.regs := rfl
@[simp] theorem emitHwi_pc (s : State) (m : Word) : (emitHwi m s).pc = s.pc := rfl
@[simp] theorem emitHwi_ex (s : State) (m : Word) : (emitHwi m s).ex = s.ex := rfl
@[simp] theorem emitHwi_c2 (s : State) (m : Word) : (emitHwi m s).c2 = s.c2 := rfl
@[simp] theorem emitHwi_c3 (s : State) (m : Word) : (emitHwi m s).c3 = s.c3 := rfl
@[simp] theorem emitHwi_ia (s : State) (m : Word) : (emitHwi m s).ia = s.ia := rfl
@[simp] theorem emitHwi_im (s : State) (m : Word) : (emitHwi m s).im = s.im := rfl
@[simp] theorem emitHwi_ir (s : State) (m : Word) : (emitHwi m s).ir = s.ir := rfl
@[simp] theorem emitHwi_fl (s : State) (m : Word) : (emitHwi m s).fl = s.fl := rfl
@[simp] theorem emitHwi_mem (s : State) (m : Word) : (emitHwi m s).mem = s.mem := rfl
@[simp] theorem emitHwi_requests (s : State) (m : Word) : (emitHwi m s).requests = s.requests := rfl
@[simp] theorem emitHwi_hwiReactions (s : State) (m : Word) : (emitHwi m s).hwiReactions = s.hwiReactions := rfl
@[simp] theorem emitHwi_hwiEvents (s : State) (m : Word) : (emitHwi m s).hwiEvents = s.hwiEvents ++ [⟨m, s.instrCount⟩] := rfl
@[simp] theorem emitHwi_instrCount (s : State) (m : Word) : (emitHwi m s).instrCount = s.instrCount := rfl
@[simp] theorem emitHwi_draws (s : State) (m : Word) : (emitHwi m s).draws = s.draws := rfl
@[simp] theorem emitHwi_reg (s : State) (m : Word) (q : Reg) : (emitHwi m s).reg q = s.reg q := rfl
@[simp] theorem emitHwi_load (s : State) (m : Word) (q : Word) (p : Config) : (emitHwi m s).load q p = s.load q p := rfl

/-! `consumeRequest`. -/

@[simp] theorem consumeRequest_regs (s : State) : (consumeRequest s).regs = s.regs := rfl
@[simp] theorem consumeRequest_pc (s : State) : (consumeRequest s).pc = s.pc := rfl
@[simp] theorem consumeRequest_ex (s : State) : (consumeRequest s).ex = s.ex := rfl
@[simp] theorem consumeRequest_c2 (s : State) : (consumeRequest s).c2 = s.c2 := rfl
@[simp] theorem consumeRequest_c3 (s : State) : (consumeRequest s).c3 = s.c3 := rfl
@[simp] theorem consumeRequest_ia (s : State) : (consumeRequest s).ia = s.ia := rfl
@[simp] theorem consumeRequest_im (s : State) : (consumeRequest s).im = s.im := rfl
@[simp] theorem consumeRequest_ir (s : State) : (consumeRequest s).ir = s.ir := rfl
@[simp] theorem consumeRequest_fl (s : State) : (consumeRequest s).fl = s.fl := rfl
@[simp] theorem consumeRequest_mem (s : State) : (consumeRequest s).mem = s.mem := rfl
@[simp] theorem consumeRequest_requests (s : State) : (consumeRequest s).requests = s.requests.tail := rfl
@[simp] theorem consumeRequest_hwiReactions (s : State) : (consumeRequest s).hwiReactions = s.hwiReactions := rfl
@[simp] theorem consumeRequest_hwiEvents (s : State) : (consumeRequest s).hwiEvents = s.hwiEvents := rfl
@[simp] theorem consumeRequest_instrCount (s : State) : (consumeRequest s).instrCount = s.instrCount := rfl
@[simp] theorem consumeRequest_draws (s : State) : (consumeRequest s).draws = s.draws := rfl
@[simp] theorem consumeRequest_reg (s : State) (q : Reg) : (consumeRequest s).reg q = s.reg q := rfl
@[simp] theorem consumeRequest_load (s : State) (q : Word) (p : Config) : (consumeRequest s).load q p = s.load q p := rfl

/-! `advancePc`. -/

@[simp] theorem advancePc_regs (s : State) : (advancePc s).regs = s.regs := rfl
@[simp] theorem advancePc_pc (s : State) : (advancePc s).pc = s.pc + 1#16 := rfl
@[simp] theorem advancePc_ex (s : State) : (advancePc s).ex = s.ex := rfl
@[simp] theorem advancePc_c2 (s : State) : (advancePc s).c2 = s.c2 := rfl
@[simp] theorem advancePc_c3 (s : State) : (advancePc s).c3 = s.c3 := rfl
@[simp] theorem advancePc_ia (s : State) : (advancePc s).ia = s.ia := rfl
@[simp] theorem advancePc_im (s : State) : (advancePc s).im = s.im := rfl
@[simp] theorem advancePc_ir (s : State) : (advancePc s).ir = s.ir := rfl
@[simp] theorem advancePc_fl (s : State) : (advancePc s).fl = s.fl := rfl
@[simp] theorem advancePc_mem (s : State) : (advancePc s).mem = s.mem := rfl
@[simp] theorem advancePc_requests (s : State) : (advancePc s).requests = s.requests := rfl
@[simp] theorem advancePc_hwiReactions (s : State) : (advancePc s).hwiReactions = s.hwiReactions := rfl
@[simp] theorem advancePc_hwiEvents (s : State) : (advancePc s).hwiEvents = s.hwiEvents := rfl
@[simp] theorem advancePc_instrCount (s : State) : (advancePc s).instrCount = s.instrCount := rfl
@[simp] theorem advancePc_draws (s : State) : (advancePc s).draws = s.draws := rfl
@[simp] theorem advancePc_reg (s : State) (q : Reg) : (advancePc s).reg q = s.reg q := rfl
@[simp] theorem advancePc_load (s : State) (q : Word) (p : Config) : (advancePc s).load q p = s.load q p := rfl

/-! `countInstr`. -/

@[simp] theorem countInstr_regs (s : State) : (countInstr s).regs = s.regs := rfl
@[simp] theorem countInstr_pc (s : State) : (countInstr s).pc = s.pc := rfl
@[simp] theorem countInstr_ex (s : State) : (countInstr s).ex = s.ex := rfl
@[simp] theorem countInstr_c2 (s : State) : (countInstr s).c2 = s.c2 := rfl
@[simp] theorem countInstr_c3 (s : State) : (countInstr s).c3 = s.c3 := rfl
@[simp] theorem countInstr_ia (s : State) : (countInstr s).ia = s.ia := rfl
@[simp] theorem countInstr_im (s : State) : (countInstr s).im = s.im := rfl
@[simp] theorem countInstr_ir (s : State) : (countInstr s).ir = s.ir := rfl
@[simp] theorem countInstr_fl (s : State) : (countInstr s).fl = s.fl := rfl
@[simp] theorem countInstr_mem (s : State) : (countInstr s).mem = s.mem := rfl
@[simp] theorem countInstr_requests (s : State) : (countInstr s).requests = s.requests := rfl
@[simp] theorem countInstr_hwiReactions (s : State) : (countInstr s).hwiReactions = s.hwiReactions := rfl
@[simp] theorem countInstr_hwiEvents (s : State) : (countInstr s).hwiEvents = s.hwiEvents := rfl
@[simp] theorem countInstr_instrCount (s : State) : (countInstr s).instrCount = s.instrCount + 1 := rfl
@[simp] theorem countInstr_draws (s : State) : (countInstr s).draws = s.draws := rfl
@[simp] theorem countInstr_reg (s : State) (q : Reg) : (countInstr s).reg q = s.reg q := rfl
@[simp] theorem countInstr_load (s : State) (q : Word) (p : Config) : (countInstr s).load q p = s.load q p := rfl

/-! `setCreg`. -/

@[simp] theorem setCreg_regs (s : State) (c : Creg) (v : Word) (p : Config) : (s.setCreg c v p).regs = s.regs := by
  cases c <;> rfl
@[simp] theorem setCreg_mem (s : State) (c : Creg) (v : Word) (p : Config) : (s.setCreg c v p).mem = s.mem := by
  cases c <;> rfl
@[simp] theorem setCreg_requests (s : State) (c : Creg) (v : Word) (p : Config) : (s.setCreg c v p).requests = s.requests := by
  cases c <;> rfl
@[simp] theorem setCreg_hwiReactions (s : State) (c : Creg) (v : Word) (p : Config) : (s.setCreg c v p).hwiReactions = s.hwiReactions := by
  cases c <;> rfl
@[simp] theorem setCreg_hwiEvents (s : State) (c : Creg) (v : Word) (p : Config) : (s.setCreg c v p).hwiEvents = s.hwiEvents := by
  cases c <;> rfl
@[simp] theorem setCreg_instrCount (s : State) (c : Creg) (v : Word) (p : Config) : (s.setCreg c v p).instrCount = s.instrCount := by
  cases c <;> rfl
@[simp] theorem setCreg_draws (s : State) (c : Creg) (v : Word) (p : Config) : (s.setCreg c v p).draws = s.draws := by
  cases c <;> rfl
@[simp] theorem setCreg_c2 (s : State) (c : Creg) (v : Word) (p : Config) : (s.setCreg c v p).c2 = s.c2 := by
  cases c <;> rfl
@[simp] theorem setCreg_c3 (s : State) (c : Creg) (v : Word) (p : Config) : (s.setCreg c v p).c3 = s.c3 := by
  cases c <;> rfl
@[simp] theorem setCreg_reg (s : State) (c : Creg) (v : Word) (p : Config) (q : Reg) : (s.setCreg c v p).reg q = s.reg q := by
  cases c <;> rfl
@[simp] theorem setCreg_load (s : State) (c : Creg) (v : Word) (p p' : Config) (q : Word) : (s.setCreg c v p).load q p' = s.load q p' := by
  cases c <;> rfl

/-- A write of a control register leaves every other one as it is. -/
theorem setCreg_held_other (s : State) (c d : Creg) (v : Word) (p : Config) (h : d ≠ c) : (s.setCreg c v p).held d = s.held d := by
  cases c <;> cases d <;> first | rfl | exact absurd rfl h

/-- A write of a defined control register is read back, FL as `FL_RESERVED` says. -/
theorem setCreg_held_written (s : State) (c : Creg) (v : Word) (p : Config) (h2 : c ≠ .c2) (h3 : c ≠ .c3) :
    (s.setCreg c v p).held c = if c = .fl then flWritten p.flReserved v else v := by
  cases c <;> first | rfl | exact absurd rfl h2 | exact absurd rfl h3

/-- A write of a defined control register is read back (FL by `FL_RESERVED`'s default). -/
theorem setCreg_held_self (s : State) (c : Creg) (v : Word) (h2 : c ≠ .c2) (h3 : c ≠ .c3) :
    (s.setCreg c v).held c = v := by
  cases c <;> first | rfl | exact absurd rfl h2 | exact absurd rfl h3

/-- A write of a reserved control register changes nothing (R30). -/
theorem setCreg_reserved (s : State) (c : Creg) (v : Word) (p : Config) (h : c = .c2 ∨ c = .c3) : s.setCreg c v p = s := by
  rcases h with rfl | rfl <;> rfl

/-! `State.resetWith`: every reset parameter of R6 is what its register or memory holds. -/

@[simp] theorem resetWith_regs (p : Config) : (State.resetWith p).regs = p.resetRegs := rfl
@[simp] theorem resetWith_pc (p : Config) : (State.resetWith p).pc = p.resetPc := rfl
@[simp] theorem resetWith_ex (p : Config) : (State.resetWith p).ex = p.resetEx := rfl
@[simp] theorem resetWith_c2 (p : Config) : (State.resetWith p).c2 = p.resetC2 := rfl
@[simp] theorem resetWith_c3 (p : Config) : (State.resetWith p).c3 = p.resetC3 := rfl
@[simp] theorem resetWith_ia (p : Config) : (State.resetWith p).ia = p.resetIa := rfl
@[simp] theorem resetWith_im (p : Config) : (State.resetWith p).im = p.resetIm := rfl
@[simp] theorem resetWith_ir (p : Config) : (State.resetWith p).ir = p.resetIr := rfl
@[simp] theorem resetWith_fl (p : Config) : (State.resetWith p).fl = p.resetFl := rfl
@[simp] theorem resetWith_mem (p : Config) : (State.resetWith p).mem = p.resetMem := rfl
@[simp] theorem resetWith_requests (p : Config) : (State.resetWith p).requests = [] := rfl
@[simp] theorem resetWith_hwiReactions (p : Config) : (State.resetWith p).hwiReactions = [] := rfl
@[simp] theorem resetWith_hwiEvents (p : Config) : (State.resetWith p).hwiEvents = [] := rfl
@[simp] theorem resetWith_instrCount (p : Config) : (State.resetWith p).instrCount = 0 := rfl
@[simp] theorem resetWith_draws (p : Config) : (State.resetWith p).draws = 0 := rfl

/-! The parameters. -/

@[simp] theorem params_octetOrder : params.octetOrder = .msFirst := rfl
@[simp] theorem params_exAddendExt : params.exAddendExt = .zero := rfl
@[simp] theorem params_dviRound : params.dviRound = .towardZero := rfl
@[simp] theorem params_mdiSign : params.mdiSign = .dividend := rfl
@[simp] theorem params_gbsSource : params.gbsSource = .register := rfl
@[simp] theorem params_shiftCount : params.shiftCount = .full := rfl
@[simp] theorem params_unaMsgExt : params.unaMsgExt = .zero := rfl
@[simp] theorem params_flReserved : params.flReserved = .storage := rfl
@[simp] theorem params_resetPc : params.resetPc = 0x0000#16 := rfl
@[simp] theorem params_resetFl : params.resetFl = 0x0001#16 := rfl
@[simp] theorem params_divZeroEx : params.divZeroEx = Config.div0Ex := rfl
@[simp] theorem params_gbsOfZero : params.gbsOfZero = Config.gbsZero := rfl
@[simp] theorem params_rotCount : params.rotCount = countModulo16 := rfl
@[simp] theorem params_reservedRead : params.reservedRead = Config.cregReserved := rfl
@[simp] theorem params_unassignedOp : params.unassignedOp = .fault := rfl
@[simp] theorem params_platformMap : params.platformMap = [] := rfl
@[simp] theorem params_resetRegs : params.resetRegs = Vector.replicate 31 0#16 := rfl
@[simp] theorem params_resetEx : params.resetEx = 0#16 := rfl
@[simp] theorem params_resetC2 : params.resetC2 = 0#16 := rfl
@[simp] theorem params_resetC3 : params.resetC3 = 0#16 := rfl
@[simp] theorem params_resetIa : params.resetIa = 0#16 := rfl
@[simp] theorem params_resetIm : params.resetIm = 0#16 := rfl
@[simp] theorem params_resetIr : params.resetIr = 0#16 := rfl
@[simp] theorem params_resetMem : params.resetMem = [] := rfl

/-- Under the default of `ROT_COUNT` every rotate count is taken modulo 16 (R218). -/
@[simp] theorem rotateAmount_params (b : Word) : rotateAmount b = b.toNat % 16 := by
  unfold rotateAmount
  split
  · exact (Nat.mod_eq_of_lt (by assumption)).symm
  · rfl

end Sys2Proof.Machine
end

