-- ==== Sys2Proof/Laws/Memory.lean ====
section
/-! SUPPORT. Memory: what an octet and a word read after a write, and that every memory operation keeps
the canonical form. -/

namespace Sys2Proof.Machine

/-- Starting lower keeps the form. -/
theorem wfFrom_mono (m : Memory) (lo lo' : Nat) (h : Memory.wfFrom lo m = true) (hl : lo' ≤ lo) :
    Memory.wfFrom lo' m = true := by
  cases m with
  | nil => rfl
  | cons e rest =>
    simp only [Memory.wfFrom, Bool.and_eq_true, decide_eq_true_eq] at h ⊢
    exact ⟨⟨⟨by omega, h.1.1.2⟩, h.1.2⟩, h.2⟩

/-- Taking an entry out keeps the canonical form. -/
theorem wfFrom_erase (m : Memory) (lo a : Nat) (h : Memory.wfFrom lo m = true) :
    Memory.wfFrom lo (m.erase a) = true := by
  induction m generalizing lo with
  | nil => rfl
  | cons e rest ih =>
    simp only [Memory.wfFrom, Bool.and_eq_true, decide_eq_true_eq] at h
    simp only [Memory.erase]
    split
    · exact wfFrom_mono _ (e.1 + 1) lo (ih _ h.2) (by omega)
    · simp only [Memory.wfFrom, Bool.and_eq_true, decide_eq_true_eq]
      exact ⟨h.1, ih _ h.2⟩

/-- Listing an octet inside the octet space keeps the canonical form. -/
theorem wfFrom_insert (m : Memory) (lo a : Nat) (v : Byte) (h : Memory.wfFrom lo m = true) (hl : lo ≤ a)
    (ha : a < 0x20000) (hv : v ≠ unlistedOctet) : Memory.wfFrom lo (m.insert a v) = true := by
  induction m generalizing lo with
  | nil => simp [Memory.insert, Memory.wfFrom, hl, ha, hv]
  | cons e rest ih =>
    simp only [Memory.wfFrom, Bool.and_eq_true, decide_eq_true_eq] at h
    obtain ⟨⟨⟨h1, h2⟩, h3⟩, h4⟩ := h
    simp only [Memory.insert]
    split
    · simp only [Memory.wfFrom, Bool.and_eq_true, decide_eq_true_eq]
      exact ⟨⟨⟨hl, ha⟩, hv⟩, ⟨⟨⟨by omega, h2⟩, h3⟩, h4⟩⟩
    · split
      · rename_i hk
        simp only [Memory.wfFrom, Bool.and_eq_true, decide_eq_true_eq]
        exact ⟨⟨⟨hl, ha⟩, hv⟩, hk ▸ h4⟩
      · simp only [Memory.wfFrom, Bool.and_eq_true, decide_eq_true_eq]
        exact ⟨⟨⟨h1, h2⟩, h3⟩, ih _ h4 (by omega)⟩

/-- A store inside the octet space keeps the canonical form. -/
theorem wf_put (m : Memory) (a : Nat) (v : Byte) (h : m.wf = true) (ha : a < 0x20000) :
    (m.put a v).wf = true := by
  unfold Memory.put
  split
  · exact wfFrom_erase m 0 a h
  · exact wfFrom_insert m 0 a v h (Nat.zero_le a) ha (by assumption)

/-- An octet taken out reads as an unlisted one; the others read as before. -/
theorem octet_erase (m : Memory) (a b : Nat) :
    (m.erase a).octet b = if b = a then unlistedOctet else m.octet b := by
  induction m with
  | nil => simp [Memory.erase, Memory.octet]
  | cons e rest ih =>
    simp only [Memory.erase]
    by_cases hk : e.1 = a
    · rw [if_pos hk, ih]
      by_cases hb : b = a
      · simp [hb]
      · have : e.1 ≠ b := fun h => hb (h.symm.trans hk)
        simp [hb, Memory.octet, this]
    · rw [if_neg hk]
      by_cases hkb : e.1 = b
      · have : b ≠ a := fun h => hk (hkb.trans h)
        simp [Memory.octet, hkb, this]
      · simp [Memory.octet, hkb, ih]

/-- An octet listed is read back; the others read as before. -/
theorem octet_insert (m : Memory) (a b : Nat) (v : Byte) :
    (m.insert a v).octet b = if b = a then v else m.octet b := by
  have single : ∀ r : Memory, Memory.octet ((a, v) :: r) b = if b = a then v else r.octet b := by
    intro r
    simp only [Memory.octet, eq_comm]
  induction m with
  | nil => exact single []
  | cons e rest ih =>
    simp only [Memory.insert]
    split
    · exact single _
    · split
      · rename_i hk
        rw [single]
        by_cases hb : b = a
        · simp [hb]
        · have : e.1 ≠ b := fun h => hb (h.symm.trans hk.symm)
          simp [hb, Memory.octet, this]
      · rename_i hk
        by_cases hkb : e.1 = b
        · have : b ≠ a := fun h => hk (h.symm.trans hkb.symm)
          simp [Memory.octet, hkb, this]
        · simp [Memory.octet, hkb, ih]

/-- What an octet read sees after a store. -/
theorem octet_put (m : Memory) (a b : Nat) (v : Byte) :
    (m.put a v).octet b = if b = a then v else m.octet b := by
  unfold Memory.put
  split
  · rename_i hv; rw [octet_erase, hv]
  · exact octet_insert m a b v

theorem octetAddr_lt (a : Word) : octetAddr a + 1 < 0x20000 := by
  have := a.isLt
  unfold octetAddr; omega

/-- `MemWrite` keeps the canonical form. -/
theorem wf_putWord (m : Memory) (a v : Word) (o : OctetOrder) (h : m.wf = true) : (m.putWord a v o).wf = true := by
  have := octetAddr_lt a
  exact wf_put _ _ _ (wf_put _ _ _ h (by omega)) (by omega)

/-- What an octet read sees after `MemWrite`. -/
theorem octet_putWord (m : Memory) (a v : Word) (o : OctetOrder) (b : Nat) :
    (m.putWord a v o).octet b =
      if b = octetAddr a + 1 then (wordOctets o v).2
      else if b = octetAddr a then (wordOctets o v).1 else m.octet b := by
  unfold Memory.putWord
  rw [octet_put, octet_put]

/-- The two octets of a word are the word, in either order. -/
theorem octetsWord_wordOctets (o : OctetOrder) (v : Word) :
    octetsWord o (wordOctets o v).1 (wordOctets o v).2 = v := by
  cases o <;>
  · apply BitVec.eq_of_toNat_eq
    have := v.isLt
    simp only [octetsWord, wordOctets, BitVec.toNat_append, BitVec.extractLsb'_toNat, Nat.shiftRight_eq_div_pow]
    rw [← Nat.shiftLeft_add_eq_or_of_lt (by omega), Nat.shiftLeft_eq]
    omega

/-- The octets of a store are those of its word. -/
theorem octet_putWord_outside (m : Memory) (a v : Word) (o : OctetOrder) (b : Nat) (h1 : b ≠ octetAddr a)
    (h2 : b ≠ octetAddr a + 1) : (m.putWord a v o).octet b = m.octet b := by
  rw [octet_putWord, if_neg h2, if_neg h1]

/-- The memory of every state a store reaches is canonical. -/
theorem wf_store (s : State) (a v : Word) (p : Config) (h : s.mem.wf = true) : (s.store a v p).mem.wf = true :=
  wf_putWord _ _ _ _ h

/-- The reset memory is canonical. -/
theorem wf_reset : State.reset.mem.wf = true := rfl

end Sys2Proof.Machine
end

