-- ==== Sys2Proof/Laws/PerInstr.lean ====
section
/-! SUPPORT. A statement about every instruction as syntax, one lemma per constructor: a well-formed
instruction is encoded into the row of the opcode table that bears its name (R104). -/

namespace Sys2Proof.Laws

/-- The row of the table under this instruction's name covers its first word, and its length is the
number of words of the encoding. -/
def EncodesRow.Statement (i : Instr) : Prop :=
  i.wellFormed = true → ∃ r ∈ opcodeTable, r.mnemonic = i.mnemonic ∧
    ∃ w rest, encode i = w :: rest ∧ r.covers w = true ∧ r.words = rest.length + 1

theorem and_63 (x : Nat) : x &&& 63 = x % 64 := Nat.and_two_pow_sub_one_eq_mod x 6

theorem and_2047 (x : Nat) : x &&& 2047 = x % 2048 := Nat.and_two_pow_sub_one_eq_mod x 11

theorem selField_lt (k : CregSel) : selField k < 32 := by
  obtain ⟨m, c⟩ := k
  cases m <;> cases c <;> decide

/-- An ORD word lies in the row of its ID. -/
theorem ordWord_covered (r : OpcodeRow) (id a b : Nat) (hm : r.mask = 63) (hb : r.bits = id) (hid : id < 64) :
    r.covers (ordWord id a b) = true := by
  simp only [OpcodeRow.covers, ordWord, hm, hb, and_63, BitVec.toNat_ofNat, beq_iff_eq]
  omega

/-- A UNA word lies in the row of its ID. -/
theorem unaWord_covered (r : OpcodeRow) (id c : Nat) (hm : r.mask = 63) (hb : r.bits = id) (hid : id < 64) :
    r.covers (unaWord id c) = true := by
  simp only [OpcodeRow.covers, unaWord, hm, hb, and_63, BitVec.toNat_ofNat, beq_iff_eq]
  omega

/-- The first word of IMP lies in the row of its ID. -/
theorem impWord_covered (r : OpcodeRow) (id a : Nat) (hm : r.mask = 2047) (hb : r.bits = id * 64) (hid : id < 32) :
    r.covers (impWord id a) = true := by
  simp only [OpcodeRow.covers, impWord, hm, hb, and_2047, BitVec.toNat_ofNat, beq_iff_eq]
  omega

/-- An ORD instruction is in its row. -/
theorem encodesRow_ord (n : Nat) (hn : n < opcodeTable.length) (i : Instr) (id a b : Nat)
    (he : encode i = [ordWord id a b]) (hname : opcodeTable[n].mnemonic = i.mnemonic)
    (hm : opcodeTable[n].mask = 63) (hb : opcodeTable[n].bits = id) (hw : opcodeTable[n].words = 1)
    (hid : id < 64) : EncodesRow.Statement i :=
  fun _ => ⟨opcodeTable[n], List.getElem_mem hn, hname, _, [], he, ordWord_covered _ _ _ _ hm hb hid, hw⟩

/-- A UNA instruction is in its row. -/
theorem encodesRow_una (n : Nat) (hn : n < opcodeTable.length) (i : Instr) (id c : Nat)
    (he : encode i = [unaWord id c]) (hname : opcodeTable[n].mnemonic = i.mnemonic)
    (hm : opcodeTable[n].mask = 63) (hb : opcodeTable[n].bits = id) (hw : opcodeTable[n].words = 1)
    (hid : id < 64) : EncodesRow.Statement i :=
  fun _ => ⟨opcodeTable[n], List.getElem_mem hn, hname, _, [], he, unaWord_covered _ _ _ hm hb hid, hw⟩

/-- An IMP instruction is in its row. -/
theorem encodesRow_imp (n : Nat) (hn : n < opcodeTable.length) (i : Instr) (id a : Nat) (v : Word)
    (he : encode i = [impWord id a, v]) (hname : opcodeTable[n].mnemonic = i.mnemonic)
    (hm : opcodeTable[n].mask = 2047) (hb : opcodeTable[n].bits = id * 64) (hw : opcodeTable[n].words = 2)
    (hid : id < 32) : EncodesRow.Statement i :=
  fun _ => ⟨opcodeTable[n], List.getElem_mem hn, hname, _, [v], he, impWord_covered _ _ _ hm hb hid, hw⟩

theorem EncodesRow.mov (a b : Reg) : EncodesRow.Statement (.mov a b) :=
  encodesRow_ord 0 (by decide) _ _ _ _ rfl rfl rfl rfl rfl (by decide)

theorem EncodesRow.mtc (k : CregSel) (b : Reg) : EncodesRow.Statement (.mtc k b) :=
  encodesRow_ord 1 (by decide) _ _ _ _ rfl rfl rfl rfl rfl (by decide)

theorem EncodesRow.mfc (a : Reg) (k : CregSel) : EncodesRow.Statement (.mfc a k) :=
  encodesRow_ord 2 (by decide) _ _ _ _ rfl rfl rfl rfl rfl (by decide)

theorem EncodesRow.str (a b : Reg) : EncodesRow.Statement (.str a b) :=
  encodesRow_ord 3 (by decide) _ _ _ _ rfl rfl rfl rfl rfl (by decide)

theorem EncodesRow.psh (a b : Reg) : EncodesRow.Statement (.psh a b) :=
  encodesRow_ord 4 (by decide) _ _ _ _ rfl rfl rfl rfl rfl (by decide)

theorem EncodesRow.loa (a b : Reg) : EncodesRow.Statement (.loa a b) :=
  encodesRow_ord 5 (by decide) _ _ _ _ rfl rfl rfl rfl rfl (by decide)

theorem EncodesRow.pop (a b : Reg) : EncodesRow.Statement (.pop a b) :=
  encodesRow_ord 6 (by decide) _ _ _ _ rfl rfl rfl rfl rfl (by decide)

theorem EncodesRow.mom (a b : Reg) : EncodesRow.Statement (.mom a b) :=
  encodesRow_ord 7 (by decide) _ _ _ _ rfl rfl rfl rfl rfl (by decide)

theorem EncodesRow.srl (a b : Reg) : EncodesRow.Statement (.srl a b) :=
  encodesRow_ord 8 (by decide) _ _ _ _ rfl rfl rfl rfl rfl (by decide)

theorem EncodesRow.add (a b : Reg) : EncodesRow.Statement (.add a b) :=
  encodesRow_ord 9 (by decide) _ _ _ _ rfl rfl rfl rfl rfl (by decide)

theorem EncodesRow.adx (a b : Reg) : EncodesRow.Statement (.adx a b) :=
  encodesRow_ord 10 (by decide) _ _ _ _ rfl rfl rfl rfl rfl (by decide)

theorem EncodesRow.sub (a b : Reg) : EncodesRow.Statement (.sub a b) :=
  encodesRow_ord 11 (by decide) _ _ _ _ rfl rfl rfl rfl rfl (by decide)

theorem EncodesRow.sbx (a b : Reg) : EncodesRow.Statement (.sbx a b) :=
  encodesRow_ord 12 (by decide) _ _ _ _ rfl rfl rfl rfl rfl (by decide)

theorem EncodesRow.mul (a b : Reg) : EncodesRow.Statement (.mul a b) :=
  encodesRow_ord 13 (by decide) _ _ _ _ rfl rfl rfl rfl rfl (by decide)

theorem EncodesRow.mli (a b : Reg) : EncodesRow.Statement (.mli a b) :=
  encodesRow_ord 14 (by decide) _ _ _ _ rfl rfl rfl rfl rfl (by decide)

theorem EncodesRow.div (a b : Reg) : EncodesRow.Statement (.div a b) :=
  encodesRow_ord 15 (by decide) _ _ _ _ rfl rfl rfl rfl rfl (by decide)

theorem EncodesRow.dvi (a b : Reg) : EncodesRow.Statement (.dvi a b) :=
  encodesRow_ord 16 (by decide) _ _ _ _ rfl rfl rfl rfl rfl (by decide)

theorem EncodesRow.mod (a b : Reg) : EncodesRow.Statement (.mod a b) :=
  encodesRow_ord 17 (by decide) _ _ _ _ rfl rfl rfl rfl rfl (by decide)

theorem EncodesRow.mdi (a b : Reg) : EncodesRow.Statement (.mdi a b) :=
  encodesRow_ord 18 (by decide) _ _ _ _ rfl rfl rfl rfl rfl (by decide)

theorem EncodesRow.inc (a : Reg) (imm : Int) : EncodesRow.Statement (.inc a imm) :=
  encodesRow_ord 19 (by decide) _ _ _ _ rfl rfl rfl rfl rfl (by decide)

theorem EncodesRow.gbs (a b : Reg) : EncodesRow.Statement (.gbs a b) :=
  encodesRow_ord 20 (by decide) _ _ _ _ rfl rfl rfl rfl rfl (by decide)

theorem EncodesRow.and (a b : Reg) : EncodesRow.Statement (.and a b) :=
  encodesRow_ord 21 (by decide) _ _ _ _ rfl rfl rfl rfl rfl (by decide)

theorem EncodesRow.ior (a b : Reg) : EncodesRow.Statement (.ior a b) :=
  encodesRow_ord 22 (by decide) _ _ _ _ rfl rfl rfl rfl rfl (by decide)

theorem EncodesRow.xor (a b : Reg) : EncodesRow.Statement (.xor a b) :=
  encodesRow_ord 23 (by decide) _ _ _ _ rfl rfl rfl rfl rfl (by decide)

theorem EncodesRow.bic (a b : Reg) : EncodesRow.Statement (.bic a b) :=
  encodesRow_ord 24 (by decide) _ _ _ _ rfl rfl rfl rfl rfl (by decide)

theorem EncodesRow.shl (a b : Reg) : EncodesRow.Statement (.shl a b) :=
  encodesRow_ord 25 (by decide) _ _ _ _ rfl rfl rfl rfl rfl (by decide)

theorem EncodesRow.asr (a b : Reg) : EncodesRow.Statement (.asr a b) :=
  encodesRow_ord 26 (by decide) _ _ _ _ rfl rfl rfl rfl rfl (by decide)

theorem EncodesRow.shr (a b : Reg) : EncodesRow.Statement (.shr a b) :=
  encodesRow_ord 27 (by decide) _ _ _ _ rfl rfl rfl rfl rfl (by decide)

theorem EncodesRow.rol (a b : Reg) : EncodesRow.Statement (.rol a b) :=
  encodesRow_ord 28 (by decide) _ _ _ _ rfl rfl rfl rfl rfl (by decide)

theorem EncodesRow.ror (a b : Reg) : EncodesRow.Statement (.ror a b) :=
  encodesRow_ord 29 (by decide) _ _ _ _ rfl rfl rfl rfl rfl (by decide)

theorem EncodesRow.tst (a b : Reg) : EncodesRow.Statement (.tst a b) :=
  encodesRow_ord 30 (by decide) _ _ _ _ rfl rfl rfl rfl rfl (by decide)

theorem EncodesRow.teq (a b : Reg) : EncodesRow.Statement (.teq a b) :=
  encodesRow_ord 31 (by decide) _ _ _ _ rfl rfl rfl rfl rfl (by decide)

theorem EncodesRow.cmp (a b : Reg) : EncodesRow.Statement (.cmp a b) :=
  encodesRow_ord 32 (by decide) _ _ _ _ rfl rfl rfl rfl rfl (by decide)

theorem EncodesRow.cmn (a b : Reg) : EncodesRow.Statement (.cmn a b) :=
  encodesRow_ord 33 (by decide) _ _ _ _ rfl rfl rfl rfl rfl (by decide)

theorem EncodesRow.jmp (off : Int) : EncodesRow.Statement (.jmp off) :=
  encodesRow_una 34 (by decide) _ _ _ rfl rfl rfl rfl rfl (by decide)

theorem EncodesRow.jlt (off : Int) : EncodesRow.Statement (.jlt off) :=
  encodesRow_una 35 (by decide) _ _ _ rfl rfl rfl rfl rfl (by decide)

theorem EncodesRow.jle (off : Int) : EncodesRow.Statement (.jle off) :=
  encodesRow_una 36 (by decide) _ _ _ rfl rfl rfl rfl rfl (by decide)

theorem EncodesRow.jgt (off : Int) : EncodesRow.Statement (.jgt off) :=
  encodesRow_una 37 (by decide) _ _ _ rfl rfl rfl rfl rfl (by decide)

theorem EncodesRow.jge (off : Int) : EncodesRow.Statement (.jge off) :=
  encodesRow_una 38 (by decide) _ _ _ rfl rfl rfl rfl rfl (by decide)

theorem EncodesRow.jeq (off : Int) : EncodesRow.Statement (.jeq off) :=
  encodesRow_una 39 (by decide) _ _ _ rfl rfl rfl rfl rfl (by decide)

theorem EncodesRow.jne (off : Int) : EncodesRow.Statement (.jne off) :=
  encodesRow_una 40 (by decide) _ _ _ rfl rfl rfl rfl rfl (by decide)

theorem EncodesRow.swi (c : Nat) : EncodesRow.Statement (.swi c) :=
  encodesRow_una 41 (by decide) _ _ _ rfl rfl rfl rfl rfl (by decide)

theorem EncodesRow.hwi (c : Nat) : EncodesRow.Statement (.hwi c) :=
  encodesRow_una 42 (by decide) _ _ _ rfl rfl rfl rfl rfl (by decide)

theorem EncodesRow.ire (c : Nat) : EncodesRow.Statement (.ire c) :=
  encodesRow_una 43 (by decide) _ _ _ rfl rfl rfl rfl rfl (by decide)

theorem EncodesRow.impBrk (a : Reg) (n : Word) : EncodesRow.Statement (.impBrk a n) :=
  encodesRow_imp 44 (by decide) _ _ _ _ rfl rfl rfl rfl rfl (by decide)

theorem EncodesRow.impMov (a : Reg) (n : Word) : EncodesRow.Statement (.impMov a n) :=
  encodesRow_imp 45 (by decide) _ _ _ _ rfl rfl rfl rfl rfl (by decide)

theorem EncodesRow.impMtc (k : CregSel) (n : Word) : EncodesRow.Statement (.impMtc k n) :=
  encodesRow_imp 46 (by decide) _ _ _ _ rfl rfl rfl rfl rfl (by decide)

theorem EncodesRow.impStr (a : Reg) (n : Word) : EncodesRow.Statement (.impStr a n) :=
  encodesRow_imp 47 (by decide) _ _ _ _ rfl rfl rfl rfl rfl (by decide)

theorem EncodesRow.impPsh (a : Reg) (n : Word) : EncodesRow.Statement (.impPsh a n) :=
  encodesRow_imp 48 (by decide) _ _ _ _ rfl rfl rfl rfl rfl (by decide)

theorem EncodesRow.impSrl (a : Reg) (n : Word) : EncodesRow.Statement (.impSrl a n) :=
  encodesRow_imp 49 (by decide) _ _ _ _ rfl rfl rfl rfl rfl (by decide)

theorem EncodesRow.impAdd (a : Reg) (n : Word) : EncodesRow.Statement (.impAdd a n) :=
  encodesRow_imp 50 (by decide) _ _ _ _ rfl rfl rfl rfl rfl (by decide)

theorem EncodesRow.impAdx (a : Reg) (n : Word) : EncodesRow.Statement (.impAdx a n) :=
  encodesRow_imp 51 (by decide) _ _ _ _ rfl rfl rfl rfl rfl (by decide)

theorem EncodesRow.impSub (a : Reg) (n : Word) : EncodesRow.Statement (.impSub a n) :=
  encodesRow_imp 52 (by decide) _ _ _ _ rfl rfl rfl rfl rfl (by decide)

theorem EncodesRow.impSbx (a : Reg) (n : Word) : EncodesRow.Statement (.impSbx a n) :=
  encodesRow_imp 53 (by decide) _ _ _ _ rfl rfl rfl rfl rfl (by decide)

theorem EncodesRow.impMul (a : Reg) (n : Word) : EncodesRow.Statement (.impMul a n) :=
  encodesRow_imp 54 (by decide) _ _ _ _ rfl rfl rfl rfl rfl (by decide)

theorem EncodesRow.impMli (a : Reg) (n : Word) : EncodesRow.Statement (.impMli a n) :=
  encodesRow_imp 55 (by decide) _ _ _ _ rfl rfl rfl rfl rfl (by decide)

theorem EncodesRow.impDiv (a : Reg) (n : Word) : EncodesRow.Statement (.impDiv a n) :=
  encodesRow_imp 56 (by decide) _ _ _ _ rfl rfl rfl rfl rfl (by decide)

theorem EncodesRow.impDvi (a : Reg) (n : Word) : EncodesRow.Statement (.impDvi a n) :=
  encodesRow_imp 57 (by decide) _ _ _ _ rfl rfl rfl rfl rfl (by decide)

theorem EncodesRow.impMod (a : Reg) (n : Word) : EncodesRow.Statement (.impMod a n) :=
  encodesRow_imp 58 (by decide) _ _ _ _ rfl rfl rfl rfl rfl (by decide)

theorem EncodesRow.impMdi (a : Reg) (n : Word) : EncodesRow.Statement (.impMdi a n) :=
  encodesRow_imp 59 (by decide) _ _ _ _ rfl rfl rfl rfl rfl (by decide)

theorem EncodesRow.impInc (a : Reg) (n : Word) : EncodesRow.Statement (.impInc a n) :=
  encodesRow_imp 60 (by decide) _ _ _ _ rfl rfl rfl rfl rfl (by decide)

theorem EncodesRow.impAnd (a : Reg) (n : Word) : EncodesRow.Statement (.impAnd a n) :=
  encodesRow_imp 61 (by decide) _ _ _ _ rfl rfl rfl rfl rfl (by decide)

theorem EncodesRow.impIor (a : Reg) (n : Word) : EncodesRow.Statement (.impIor a n) :=
  encodesRow_imp 62 (by decide) _ _ _ _ rfl rfl rfl rfl rfl (by decide)

theorem EncodesRow.impXor (a : Reg) (n : Word) : EncodesRow.Statement (.impXor a n) :=
  encodesRow_imp 63 (by decide) _ _ _ _ rfl rfl rfl rfl rfl (by decide)

theorem EncodesRow.impBic (a : Reg) (n : Word) : EncodesRow.Statement (.impBic a n) :=
  encodesRow_imp 64 (by decide) _ _ _ _ rfl rfl rfl rfl rfl (by decide)

theorem EncodesRow.impShl (a : Reg) (n : Word) : EncodesRow.Statement (.impShl a n) :=
  encodesRow_imp 65 (by decide) _ _ _ _ rfl rfl rfl rfl rfl (by decide)

theorem EncodesRow.impAsr (a : Reg) (n : Word) : EncodesRow.Statement (.impAsr a n) :=
  encodesRow_imp 66 (by decide) _ _ _ _ rfl rfl rfl rfl rfl (by decide)

theorem EncodesRow.impShr (a : Reg) (n : Word) : EncodesRow.Statement (.impShr a n) :=
  encodesRow_imp 67 (by decide) _ _ _ _ rfl rfl rfl rfl rfl (by decide)

theorem EncodesRow.impRol (a : Reg) (n : Word) : EncodesRow.Statement (.impRol a n) :=
  encodesRow_imp 68 (by decide) _ _ _ _ rfl rfl rfl rfl rfl (by decide)

theorem EncodesRow.impRor (a : Reg) (n : Word) : EncodesRow.Statement (.impRor a n) :=
  encodesRow_imp 69 (by decide) _ _ _ _ rfl rfl rfl rfl rfl (by decide)

theorem EncodesRow.impTst (a : Reg) (n : Word) : EncodesRow.Statement (.impTst a n) :=
  encodesRow_imp 70 (by decide) _ _ _ _ rfl rfl rfl rfl rfl (by decide)

theorem EncodesRow.impTeq (a : Reg) (n : Word) : EncodesRow.Statement (.impTeq a n) :=
  encodesRow_imp 71 (by decide) _ _ _ _ rfl rfl rfl rfl rfl (by decide)

theorem EncodesRow.impCmp (a : Reg) (n : Word) : EncodesRow.Statement (.impCmp a n) :=
  encodesRow_imp 72 (by decide) _ _ _ _ rfl rfl rfl rfl rfl (by decide)

theorem EncodesRow.impCmn (a : Reg) (n : Word) : EncodesRow.Statement (.impCmn a n) :=
  encodesRow_imp 73 (by decide) _ _ _ _ rfl rfl rfl rfl rfl (by decide)

end Sys2Proof.Laws
end

