-- ==== Sys2Proof/Laws/Registers.lean ====
section
/-! SUPPORT. General registers: a write is read back, r0 reads 0 and discards writes (R22), and the
operations that write a register and EX together. -/

namespace Sys2Proof.Machine

@[simp] theorem reg_zero (s : State) : s.reg 0 = 0#16 := rfl

/-- Two general registers with equal numbers below r0's are one register. -/
theorem reg_number_inj {r q : Reg} (hr : r.val ≠ 0) (hq : q.val ≠ 0) (h : r.val - 1 = q.val - 1) : r = q := by
  apply Fin.ext; omega

/-- What a register read sees after a register write (R21, R22). -/
theorem reg_setReg (s : State) (r q : Reg) (v : Word) :
    (s.setReg r v).reg q = if q.val = 0 then 0#16 else if q = r then v else s.reg q := by
  unfold State.reg
  by_cases hq : q.val = 0
  · simp [hq]
  · by_cases hr : r.val = 0
    · have hne : q ≠ r := fun h => hq (h ▸ hr)
      simp [hq, hne, setReg_regs, hr]
    · by_cases h : q = r
      · subst h; simp [hq, setReg_regs]
      · have hne : r.val - 1 ≠ q.val - 1 := fun e => h (reg_number_inj hr hq e).symm
        simp [hq, h, setReg_regs, hr, hne]

/-- A register other than r0 reads what was written to it. -/
theorem reg_setReg_self (s : State) (r : Reg) (v : Word) (h : r.val ≠ 0) : (s.setReg r v).reg r = v := by
  simp [reg_setReg, h]

/-- A write leaves every other register alone. -/
theorem reg_setReg_other (s : State) (r q : Reg) (v : Word) (h : q ≠ r) : (s.setReg r v).reg q = s.reg q := by
  rw [reg_setReg]
  by_cases hq : q.val = 0
  · simp [hq, State.reg]
  · simp [hq, h]

/-- The destination of a write, with r0's discarded write (R22). -/
theorem reg_setReg_dest (s : State) (r : Reg) (v : Word) :
    (s.setReg r v).reg r = if r = 0 then 0#16 else v := by
  rw [reg_setReg]
  by_cases h : r = 0
  · simp [h]
  · have : r.val ≠ 0 := fun e => h (Fin.ext e)
    simp [h, this]

/-- No update of one register reaches a control register. -/
@[simp] theorem setReg_held (s : State) (r : Reg) (v : Word) (c : Creg) : (s.setReg r v).held c = s.held c := by
  cases c <;> rfl

@[simp] theorem store_held (s : State) (a v : Word) (p : Config) (c : Creg) : (s.store a v p).held c = s.held c := by
  cases c <;> rfl

@[simp] theorem drawn_held (s : State) (c : Creg) : s.drawn.held c = s.held c := by
  cases c <;> rfl

theorem setEx_held (s : State) (v : Word) (c : Creg) : (s.setEx v).held c = if c = .ex then v else s.held c := by
  cases c <;> rfl

theorem setPc_held (s : State) (v : Word) (c : Creg) : (s.setPc v).held c = if c = .pc then v else s.held c := by
  cases c <;> rfl

/-! `{EX, x[a]} <- v` and `{x[a], EX} <- v` (R170). -/

@[simp] theorem writeExReg_ex (a : Reg) (v : DWord) (s : State) : (writeExReg a v s).ex = hiHalf v := rfl

theorem writeExReg_reg (a : Reg) (v : DWord) (s : State) :
    (writeExReg a v s).reg a = if a = 0 then 0#16 else loHalf v := reg_setReg_dest _ _ _

@[simp] theorem writeRegEx_ex (a : Reg) (v : DWord) (s : State) : (writeRegEx a v s).ex = loHalf v := rfl

theorem writeRegEx_reg (a : Reg) (v : DWord) (s : State) :
    (writeRegEx a v s).reg a = if a = 0 then 0#16 else hiHalf v := reg_setReg_dest _ _ _

theorem hiHalf_toNat (v : DWord) : (hiHalf v).toNat = v.toNat / 65536 := by
  have := v.isLt
  simp only [hiHalf, BitVec.extractLsb'_toNat, Nat.shiftRight_eq_div_pow]
  omega

theorem loHalf_toNat (v : DWord) : (loHalf v).toNat = v.toNat % 65536 := by
  simp only [loHalf, BitVec.extractLsb'_toNat, Nat.shiftRight_zero]

end Sys2Proof.Machine
end

