-- ==== Sys2Proof/Laws/Step.lean ====
section
/-! SUPPORT. What the shared operations, the fetch, the environment and the step can do, each said once. -/

namespace Sys2Proof.Machine

/-! Shared operations of the instruction families. -/

/-- In supervisor mode a control register write happens. -/
theorem moveToControl_supervisor (k : CregSel) (v : Word) (s : State) (p : Config) (h : s.supervisor = true) :
    moveToControl k v s p = .next (s.setCreg k.idx (modeApply k.mode (s.held k.idx) v) p) := by
  simp [moveToControl, h]

/-- In user mode it does not. -/
theorem moveToControl_user (k : CregSel) (v : Word) (s : State) (p : Config) (h : s.supervisor = false) :
    moveToControl k v s p = .next s := by
  simp [moveToControl, h]

/-- A division either is one by zero or delivers a quotient. -/
theorem divInto_cases (a : Reg) (y : Word) (s : State) (p : Config) :
    (y = 0#16 ∧ divInto a y s p = .next (divByZero a s p)) ∨
      (y ≠ 0#16 ∧ divInto a y s p = .next (writeRegEx a (div32 (s.reg a) y) s)) := by
  by_cases h : y = 0#16 <;> simp [divInto, h]

theorem dviInto_cases (a : Reg) (y : Word) (s : State) (p : Config) :
    (y = 0#16 ∧ dviInto a y s p = .next (divByZero a s p)) ∨
      (y ≠ 0#16 ∧ dviInto a y s p = .next (writeRegEx a (dvi32 p.dviRound (s.reg a) y) s)) := by
  by_cases h : y = 0#16 <;> simp [dviInto, h]

theorem execGbs_cases (a b : Reg) (s : State) :
    (s.reg b = 0#16 ∧ execGbs a b s = .next (s.drawn.setReg a (Config.gbsZero s.draws))) ∨
      (s.reg b ≠ 0#16 ∧ execGbs a b s = .next (s.setReg a (gbs16 (s.reg b)))) := by
  by_cases h : s.reg b = 0#16 <;> simp [execGbs, gbsOperand, h]

/-- Under the default of `ROT_COUNT` the rotates take their count modulo 16 (R218, R219). -/
theorem rolInto_params (a : Reg) (y : Word) (s : State) :
    rolInto a y s = .next (s.setReg a (rol16 (s.reg a) (y.toNat % 16))) := by
  rw [rolInto, rotateAmount_params]

theorem rorInto_params (a : Reg) (y : Word) (s : State) :
    rorInto a y s = .next (s.setReg a (ror16 (s.reg a) (y.toNat % 16))) := by
  rw [rorInto, rotateAmount_params]

theorem jumpIf_true (off : Int) (s : State) : jumpIf true off s = .next (s.setPc (addSigned s.pc off)) := rfl

theorem jumpIf_false (off : Int) (s : State) : jumpIf false off s = .next s := rfl

/-- Every instruction has a next state on every state, whatever the parameters: the core has no
synchronous fault (R300, D40). -/
theorem execWith_next (p : Config) (i : Instr) (s : State) : ∃ t, execWith p i s = .next t := by
  cases i with
  | mtc k b =>
    cases h : s.supervisor
    · exact ⟨_, moveToControl_user k _ s p h⟩
    · exact ⟨_, moveToControl_supervisor k _ s p h⟩
  | impMtc k n =>
    cases h : s.supervisor
    · exact ⟨_, moveToControl_user k _ s p h⟩
    · exact ⟨_, moveToControl_supervisor k _ s p h⟩
  | div a b => rcases divInto_cases a (s.reg b) s p with ⟨_, h⟩ | ⟨_, h⟩ <;> exact ⟨_, h⟩
  | dvi a b => rcases dviInto_cases a (s.reg b) s p with ⟨_, h⟩ | ⟨_, h⟩ <;> exact ⟨_, h⟩
  | impDiv a n => rcases divInto_cases a n s p with ⟨_, h⟩ | ⟨_, h⟩ <;> exact ⟨_, h⟩
  | impDvi a n => rcases dviInto_cases a n s p with ⟨_, h⟩ | ⟨_, h⟩ <;> exact ⟨_, h⟩
  | gbs a b =>
    by_cases h : gbsOperand p.gbsSource b s = 0#16
    · exact ⟨_, if_pos h⟩
    · exact ⟨_, if_neg h⟩
  | _ => exact ⟨_, rfl⟩

/-- Under the spec's defaults the machine under a configuration is the machine itself. -/
@[simp] theorem execWith_params (i : Instr) (s : State) : execWith params i s = exec i s := by
  cases i <;> rfl

/-- Every instruction has a next state on every state. -/
theorem exec_next (i : Instr) (s : State) : ∃ t, exec i s = .next t :=
  execWith_params i s ▸ execWith_next params i s

/-! The fetch (R95). -/

theorem fetch_one (s : State) (p : Config) (h : opcodeOf (s.load s.pc p) ≠ 0) :
    fetch s p = ⟨s.load s.pc p, 0#16, countInstr (advancePc s)⟩ := by
  simp [fetch, h]

theorem fetch_two (s : State) (p : Config) (h : opcodeOf (s.load s.pc p) = 0) :
    fetch s p = ⟨s.load s.pc p, s.load (s.pc + 1#16) p, countInstr (advancePc (advancePc s))⟩ := by
  simp [fetch, h]

@[simp] theorem fetch_first (s : State) (p : Config) : (fetch s p).first = s.load s.pc p := by
  unfold fetch; split <;> rfl

@[simp] theorem fetch_mem (s : State) (p : Config) : (fetch s p).state.mem = s.mem := by
  unfold fetch; split <;> rfl

@[simp] theorem fetch_events (s : State) (p : Config) : (fetch s p).state.hwiEvents = s.hwiEvents := by
  unfold fetch; split <;> rfl

@[simp] theorem fetch_count (s : State) (p : Config) : (fetch s p).state.instrCount = s.instrCount + 1 := by
  unfold fetch; split <;> rfl

@[simp] theorem fetch_reactions (s : State) (p : Config) : (fetch s p).state.hwiReactions = s.hwiReactions := by
  unfold fetch; split <;> rfl

/-! The environment. -/

/-- A property that every act of a reaction keeps is kept by a whole reaction. -/
theorem performActs_keeps {P : State → Prop} {p : Config}
    (hreg : ∀ s r v, P s → P (s.setReg r v)) (hcreg : ∀ s c v, P s → P (s.setCreg c v p))
    (hmem : ∀ s a v, P s → P (s.store a v p))
    (hreq : ∀ (s : State) (m : Word), P s → P { s with requests := some m :: s.requests })
    (acts : List PlatformAct) (s t : State) (hs : P s) (h : performActs s acts p = some t) : P t := by
  induction acts generalizing s with
  | nil => cases h; exact hs
  | cons act rest ih =>
    cases act with
    | writeReg r v => exact ih _ (hreg s r v hs) h
    | writeCreg c v => exact ih _ (hcreg s c v hs) h
    | writeMem a v => exact ih _ (hmem s a v hs) h
    | request m => exact ih _ (hreq s m hs) h
    | stop => cases h

/-- A reaction stops the machine exactly when one of its acts does. -/
theorem performActs_none_iff (acts : List PlatformAct) (s : State) (p : Config) :
    performActs s acts p = none ↔ .stop ∈ acts := by
  induction acts generalizing s with
  | nil => simp [performActs]
  | cons act rest ih => cases act <;> simp [performActs, performAct, ih]

/-- A reaction to an event stops the machine exactly when the script's next entry says so. -/
theorem platformReact_none_iff (s : State) (p : Config) :
    platformReact s p = none ↔ ∃ acts later, s.hwiReactions = acts :: later ∧ .stop ∈ acts := by
  unfold platformReact
  split
  · rename_i hr; simp [hr]
  · rename_i acts later hr; simp [hr, performActs_none_iff]

/-- A reaction is none at all, or the acts of the script's next entry. -/
theorem platformReact_cases (s t : State) (p : Config) (h : platformReact s p = some t) :
    (s.hwiReactions = [] ∧ t = s) ∨
      ∃ acts rest, s.hwiReactions = acts :: rest ∧ performActs { s with hwiReactions := rest } acts p = some t := by
  unfold platformReact at h
  split at h
  · rename_i hr; exact .inl ⟨hr, (Option.some.inj h).symm⟩
  · rename_i acts rest hr; exact .inr ⟨acts, rest, hr, h⟩

/-- After an instruction without an event nothing more happens. -/
theorem afterExec_quiet (s t : State) (p : Config) (h : t.hwiEvents = s.hwiEvents) :
    afterExec s (.next t) p = .next t := by
  simp [afterExec, h]

/-- A next state after an instruction is the instruction's own, or the platform's reaction to its event. -/
theorem afterExec_cases (s t : State) (out : Out) (p : Config) (h : afterExec s out p = .next t) :
    out = .next t ∨ ∃ u, out = .next u ∧ s.hwiEvents.length < u.hwiEvents.length ∧ platformReact u p = some t := by
  cases out with
  | fault r => cases h
  | refused r => cases h
  | next u =>
    simp only [afterExec] at h
    split at h
    · rename_i hlt
      split at h
      · rename_i v hv; cases h; exact .inr ⟨u, rfl, hlt, hv⟩
      · cases h
    · cases h; exact .inl rfl

/-! The step (R301). -/

/-- No address lies in a region of the empty map, the default of `PLATFORM_MAP`. -/
@[simp] theorem firstRegion_nil (as : List Word) : firstRegion [] as = none := by
  simp [firstRegion]

/-- A step that has a next state took an external interrupt, or ran the instruction it decoded. -/
theorem stepOf_cases (p : Config) (run : Instr → State → Out) (s t : State) (h : stepOf p run s = .next t) :
    (∃ m, acceptedRequest s = some m ∧ t = raiseInterrupt .hardware m (consumeRequest s)) ∨
      (acceptedRequest s = none ∧ ∃ i u,
        decode (fetch (consumeRequest s) p).first (fetch (consumeRequest s) p).second = .ok i ∧
        run i (fetch (consumeRequest s) p).state = .next u ∧
        (t = u ∨ ((fetch (consumeRequest s) p).state.hwiEvents.length < u.hwiEvents.length ∧
          platformReact u p = some t))) := by
  unfold stepOf at h
  split at h
  · rename_i m hm; cases h; exact .inl ⟨m, hm, rfl⟩
  · rename_i hm
    refine .inr ⟨hm, ?_⟩
    split at h
    · cases h
    · split at h
      · cases hu : p.unassignedOp <;> rw [hu] at h <;> cases h
      · rename_i i hi
        split at h
        · cases h
        · rcases afterExec_cases _ _ _ _ h with hx | ⟨u, hu, hlt, hr⟩
          · exact ⟨i, t, hi, hx, .inl rfl⟩
          · exact ⟨i, u, hi, hu, .inr ⟨hlt, hr⟩⟩

/-- `stepOf_cases` for the machine itself. -/
theorem step_cases (s t : State) (h : step s = .next t) :
    (∃ m, acceptedRequest s = some m ∧ t = raiseInterrupt .hardware m (consumeRequest s)) ∨
      (acceptedRequest s = none ∧ ∃ i u,
        decode (fetch (consumeRequest s)).first (fetch (consumeRequest s)).second = .ok i ∧
        exec i (fetch (consumeRequest s)).state = .next u ∧
        (t = u ∨ ((fetch (consumeRequest s)).state.hwiEvents.length < u.hwiEvents.length ∧
          platformReact u = some t))) :=
  stepOf_cases params exec s t h

/-- The step without the checks that the default platform map makes idle: what `step` is (R301). -/
theorem step_eq (s : State) : step s =
    match acceptedRequest s with
    | some m => .next (raiseInterrupt .hardware m (consumeRequest s))
    | none =>
      match decode (fetch (consumeRequest s)).first (fetch (consumeRequest s)).second with
      | .error _ => .fault (.unassignedOpcode (fetch (consumeRequest s)).first)
      | .ok i => afterExec (fetch (consumeRequest s)).state (exec i (fetch (consumeRequest s)).state) := by
  unfold step stepOf
  cases acceptedRequest s with
  | some m => rfl
  | none =>
    cases decode (fetch (consumeRequest s)).first (fetch (consumeRequest s)).second <;>
      simp only [params_platformMap, firstRegion_nil, params_unassignedOp, unassignedStop]

/-- Under the spec's defaults the step under a configuration is the step. -/
@[simp] theorem stepWith_params (s : State) : stepWith params s = step s := by
  unfold stepWith step
  rw [funext fun i => funext fun s => execWith_params i s]

end Sys2Proof.Machine
end

