-- ==== Sys2Proof/Machine/Assembly.lean ====
section
/-! DEFINITION. The assembly language as far as the spec gives it (R23, R24, R110 to R114): register names
and the saver convention, one text per instruction, label operands, and the idioms. Nothing of the
machine's behaviour depends on it. `mode:creg` is the spec's own notation (R113; log 29). -/

namespace Sys2Proof.Machine

/-- The NAME column of r0 to r31 (R23, R111). -/
def regNames : List String :=
  ["zr", "ra", "s0", "s1", "s2", "s3", "s4", "s5",
   "s6", "s7", "t0", "t1", "t2", "t3", "t4", "t5",
   "t6", "t7", "v0", "v1", "v2", "v3", "a0", "a1",
   "a2", "a3", "a4", "a5", "a6", "a7", "fp", "sp"]

/-- The name of a general register. -/
def regName (r : Reg) : String := regNames.getD r.val ""

/-- The SAVER column (R23, R24, R26): a software convention that the hardware does not enforce. -/
inductive Saver where
  | none
  | caller
  | callee
deriving DecidableEq, Repr

/-- The saver of a general register (R23). -/
def regSaver (r : Reg) : Saver :=
  if r.val = 0 then .none
  else if 2 ≤ r.val ∧ r.val ≤ 9 then .callee
  else if 30 ≤ r.val then .callee
  else .caller

/-- The saver of a control register (R24, R26). -/
def cregSaver : Creg → Saver
  | .ex => .caller
  | .c2 => .none
  | .c3 => .none
  | .pc => .callee
  | .ia => .callee
  | .im => .callee
  | .ir => .callee
  | .fl => .callee

/-- The name of a control register (R26, R113). -/
def cregName : Creg → String
  | .pc => "pc"
  | .ex => "ex"
  | .c2 => "c2"
  | .c3 => "c3"
  | .ia => "ia"
  | .im => "im"
  | .ir => "ir"
  | .fl => "fl"

/-- The k operand in the spec's notation: a bare name means `set` (R113). -/
def selText (k : CregSel) : String :=
  match k.mode with
  | .set => cregName k.idx
  | .and => "and:" ++ cregName k.idx
  | .ior => "ior:" ++ cregName k.idx
  | .xor => "xor:" ++ cregName k.idx

/-- A decimal number (R110). -/
def natText (n : Nat) : String := toString n

/-- A decimal number, optionally negative (R110). -/
def intText (i : Int) : String := toString i

/-- Operands are separated by a comma and a space (R110). -/
def twoOperands (m x y : String) : String := m ++ " " ++ x ++ ", " ++ y

/-- An instruction in assembly (R110, R111). -/
def asmText : Instr → String
  | .mov a b => twoOperands "mov" (regName a) (regName b)
  | .mtc k b => twoOperands "mtc" (selText k) (regName b)
  | .mfc a k => twoOperands "mfc" (regName a) (selText k)
  | .str a b => twoOperands "str" (regName a) (regName b)
  | .psh a b => twoOperands "psh" (regName a) (regName b)
  | .loa a b => twoOperands "loa" (regName a) (regName b)
  | .pop a b => twoOperands "pop" (regName a) (regName b)
  | .mom a b => twoOperands "mom" (regName a) (regName b)
  | .srl a b => twoOperands "srl" (regName a) (regName b)
  | .add a b => twoOperands "add" (regName a) (regName b)
  | .adx a b => twoOperands "adx" (regName a) (regName b)
  | .sub a b => twoOperands "sub" (regName a) (regName b)
  | .sbx a b => twoOperands "sbx" (regName a) (regName b)
  | .mul a b => twoOperands "mul" (regName a) (regName b)
  | .mli a b => twoOperands "mli" (regName a) (regName b)
  | .div a b => twoOperands "div" (regName a) (regName b)
  | .dvi a b => twoOperands "dvi" (regName a) (regName b)
  | .mod a b => twoOperands "mod" (regName a) (regName b)
  | .mdi a b => twoOperands "mdi" (regName a) (regName b)
  | .inc a imm => twoOperands "inc" (regName a) (intText imm)
  | .gbs a b => twoOperands "gbs" (regName a) (regName b)
  | .and a b => twoOperands "and" (regName a) (regName b)
  | .ior a b => twoOperands "ior" (regName a) (regName b)
  | .xor a b => twoOperands "xor" (regName a) (regName b)
  | .bic a b => twoOperands "bic" (regName a) (regName b)
  | .shl a b => twoOperands "shl" (regName a) (regName b)
  | .asr a b => twoOperands "asr" (regName a) (regName b)
  | .shr a b => twoOperands "shr" (regName a) (regName b)
  | .rol a b => twoOperands "rol" (regName a) (regName b)
  | .ror a b => twoOperands "ror" (regName a) (regName b)
  | .tst a b => twoOperands "tst" (regName a) (regName b)
  | .teq a b => twoOperands "teq" (regName a) (regName b)
  | .cmp a b => twoOperands "cmp" (regName a) (regName b)
  | .cmn a b => twoOperands "cmn" (regName a) (regName b)
  | .jmp off => "jmp " ++ intText off
  | .jlt off => "jlt " ++ intText off
  | .jle off => "jle " ++ intText off
  | .jgt off => "jgt " ++ intText off
  | .jge off => "jge " ++ intText off
  | .jeq off => "jeq " ++ intText off
  | .jne off => "jne " ++ intText off
  | .swi c => "swi " ++ natText c
  | .hwi c => "hwi " ++ natText c
  | .ire c => "ire " ++ natText c
  | .impBrk _ _ => "imp brk"
  | .impMov a n => twoOperands "imp mov" (regName a) (natText n.toNat)
  | .impMtc k n => twoOperands "imp mtc" (selText k) (natText n.toNat)
  | .impStr a n => twoOperands "imp str" (regName a) (natText n.toNat)
  | .impPsh a n => twoOperands "imp psh" (regName a) (natText n.toNat)
  | .impSrl a n => twoOperands "imp srl" (regName a) (natText n.toNat)
  | .impAdd a n => twoOperands "imp add" (regName a) (natText n.toNat)
  | .impAdx a n => twoOperands "imp adx" (regName a) (natText n.toNat)
  | .impSub a n => twoOperands "imp sub" (regName a) (natText n.toNat)
  | .impSbx a n => twoOperands "imp sbx" (regName a) (natText n.toNat)
  | .impMul a n => twoOperands "imp mul" (regName a) (natText n.toNat)
  | .impMli a n => twoOperands "imp mli" (regName a) (natText n.toNat)
  | .impDiv a n => twoOperands "imp div" (regName a) (natText n.toNat)
  | .impDvi a n => twoOperands "imp dvi" (regName a) (natText n.toNat)
  | .impMod a n => twoOperands "imp mod" (regName a) (natText n.toNat)
  | .impMdi a n => twoOperands "imp mdi" (regName a) (natText n.toNat)
  | .impInc a n => twoOperands "imp inc" (regName a) (natText n.toNat)
  | .impAnd a n => twoOperands "imp and" (regName a) (natText n.toNat)
  | .impIor a n => twoOperands "imp ior" (regName a) (natText n.toNat)
  | .impXor a n => twoOperands "imp xor" (regName a) (natText n.toNat)
  | .impBic a n => twoOperands "imp bic" (regName a) (natText n.toNat)
  | .impShl a n => twoOperands "imp shl" (regName a) (natText n.toNat)
  | .impAsr a n => twoOperands "imp asr" (regName a) (natText n.toNat)
  | .impShr a n => twoOperands "imp shr" (regName a) (natText n.toNat)
  | .impRol a n => twoOperands "imp rol" (regName a) (natText n.toNat)
  | .impRor a n => twoOperands "imp ror" (regName a) (natText n.toNat)
  | .impTst a n => twoOperands "imp tst" (regName a) (natText n.toNat)
  | .impTeq a n => twoOperands "imp teq" (regName a) (natText n.toNat)
  | .impCmp a n => twoOperands "imp cmp" (regName a) (natText n.toNat)
  | .impCmn a n => twoOperands "imp cmn" (regName a) (natText n.toNat)

/-- A label operand of a jump stands for the offset from the word after the jump, which must fit ten
bits (R112). `site` is the address of the jump. -/
def labelOffset (site target : Word) : Option Int :=
  if -512 ≤ (target.toNat : Int) - (site.toNat + 1) ∧ (target.toNat : Int) - (site.toNat + 1) ≤ 511
  then some ((target.toNat : Int) - (site.toNat + 1)) else none

/-! The idioms of R114. -/

/-- return: `srl zr, ra`. -/
def idiomReturn : Instr := .srl 0 1

/-- call: `imp srl ra, label`. -/
def idiomCall (label : Word) : Instr := .impSrl 1 label

/-- indirect jump: `srl zr, b`. -/
def idiomIndirectJump (b : Reg) : Instr := .srl 0 b

/-- absolute jump: `imp srl zr, label`. -/
def idiomAbsoluteJump (label : Word) : Instr := .impSrl 0 label

/-- no operation: `mov zr, zr`. -/
def idiomNop : Instr := .mov 0 0

/-- load immediate: `imp mov a, n`. -/
def idiomLoadImmediate (a : Reg) (n : Word) : Instr := .impMov a n

/-- decrement: `inc a, -1`. -/
def idiomDecrement (a : Reg) : Instr := .inc a (-1)

/-- push on the conventional stack: `psh sp, b`. -/
def idiomPush (b : Reg) : Instr := .psh 31 b

/-- pop from the conventional stack: `pop a, sp`. -/
def idiomPop (a : Reg) : Instr := .pop a 31

end Sys2Proof.Machine
end

