-- ==== Sys2Proof/Tests/Slice0.lean ====
section
/-! SUPPORT. Tests of the model, and a witness for every statement that has hypotheses. Expected values are
those of spec/95_test_vectors.md (section named above each group) or worked by hand from the rule cited. -/

namespace Sys2Proof.Tests

open Sys2Proof Sys2Proof.Machine

/-! Ill-formed terms are refused (R96, R97, R98). -/

theorem test_illformed_inc_above : (Instr.inc 3 16).wellFormed = false := by decide
theorem test_illformed_inc_below : (Instr.inc 3 (-17)).wellFormed = false := by decide
theorem test_illformed_jmp_above : (Instr.jmp 512).wellFormed = false := by decide
theorem test_illformed_jlt_below : (Instr.jlt (-513)).wellFormed = false := by decide
theorem test_illformed_jump_others : ([Instr.jle 512, .jgt (-513), .jge 512, .jeq (-513), .jne 512].all
    fun i => !i.wellFormed) = true := by decide
theorem test_illformed_messages : ([Instr.swi 1024, .hwi 1024, .ire 1024].all fun i => !i.wellFormed) = true := by
  decide
theorem test_wellformed_boundaries : ([Instr.inc 3 15, .inc 3 (-16), .jmp 511, .jmp (-512), .swi 1023].all
    fun i => i.wellFormed) = true := by decide

/-! Decoding of written words: section L2.1. -/

theorem test_decode_moves :
    decode 0x0481#16 0x0000#16 = .ok (.mov 18 0) ∧
    decode 0x0001#16 0x0000#16 = .ok (.mov 0 0) ∧
    decode 0x5a81#16 0x0000#16 = .ok (.mov 10 11) ∧
    decode 0x51c2#16 0x0000#16 = .ok (.mtc ⟨.set, .fl⟩ 10) ∧
    decode 0x55c2#16 0x0000#16 = .ok (.mtc ⟨.ior, .fl⟩ 10) ∧
    decode 0x53c2#16 0x0000#16 = .ok (.mtc ⟨.and, .fl⟩ 10) ∧
    decode 0x57c2#16 0x0000#16 = .ok (.mtc ⟨.xor, .fl⟩ 10) ∧
    decode 0x5002#16 0x0000#16 = .ok (.mtc ⟨.set, .pc⟩ 10) ∧
    decode 0x5042#16 0x0000#16 = .ok (.mtc ⟨.set, .ex⟩ 10) ∧
    decode 0x0982#16 0x0000#16 = .ok (.mtc ⟨.set, .ir⟩ 1) ∧
    decode 0x0a83#16 0x0000#16 = .ok (.mfc 10 ⟨.set, .ex⟩) ∧
    decode 0x3a83#16 0x0000#16 = .ok (.mfc 10 ⟨.set, .fl⟩) ∧
    decode 0x0283#16 0x0000#16 = .ok (.mfc 10 ⟨.set, .pc⟩) ∧
    decode 0x7a83#16 0x0000#16 = .ok (.mfc 10 ⟨.and, .fl⟩) ∧
    decode 0x2b43#16 0x0000#16 = .ok (.mfc 13 ⟨.set, .im⟩) := by decide

theorem test_decode_memory :
    decode 0x5a84#16 0x0000#16 = .ok (.str 10 11) ∧
    decode 0x0fc5#16 0x0000#16 = .ok (.psh 31 1) ∧
    decode 0x5a86#16 0x0000#16 = .ok (.loa 10 11) ∧
    decode 0xf847#16 0x0000#16 = .ok (.pop 1 31) ∧
    decode 0x5a88#16 0x0000#16 = .ok (.mom 10 11) ∧
    decode 0x0809#16 0x0000#16 = .ok (.srl 0 1) ∧
    decode 0x5049#16 0x0000#16 = .ok (.srl 1 10) := by decide

theorem test_decode_arithmetic :
    decode 0x9a90#16 0x0000#16 = .ok (.add 10 19) ∧
    decode 0x6ad1#16 0x0000#16 = .ok (.adx 11 13) ∧
    decode 0x5a92#16 0x0000#16 = .ok (.sub 10 11) ∧
    decode 0x6ad3#16 0x0000#16 = .ok (.sbx 11 13) ∧
    decode 0x5a94#16 0x0000#16 = .ok (.mul 10 11) ∧
    decode 0x5a95#16 0x0000#16 = .ok (.mli 10 11) ∧
    decode 0x5a96#16 0x0000#16 = .ok (.div 10 11) ∧
    decode 0x5a97#16 0x0000#16 = .ok (.dvi 10 11) ∧
    decode 0x5a98#16 0x0000#16 = .ok (.mod 10 11) ∧
    decode 0x5a99#16 0x0000#16 = .ok (.mdi 10 11) ∧
    decode 0xfd9a#16 0x0000#16 = .ok (.inc 22 (-1)) ∧
    decode 0x7a9a#16 0x0000#16 = .ok (.inc 10 15) ∧
    decode 0x829a#16 0x0000#16 = .ok (.inc 10 (-16)) ∧
    decode 0x029a#16 0x0000#16 = .ok (.inc 10 0) ∧
    decode 0x5a9b#16 0x0000#16 = .ok (.gbs 10 11) := by decide

theorem test_decode_logic_test :
    decode 0x5aa0#16 0x0000#16 = .ok (.and 10 11) ∧
    decode 0x5aa1#16 0x0000#16 = .ok (.ior 10 11) ∧
    decode 0x5aa2#16 0x0000#16 = .ok (.xor 10 11) ∧
    decode 0x5aa3#16 0x0000#16 = .ok (.bic 10 11) ∧
    decode 0x5aa4#16 0x0000#16 = .ok (.shl 10 11) ∧
    decode 0x5aa5#16 0x0000#16 = .ok (.asr 10 11) ∧
    decode 0x5aa6#16 0x0000#16 = .ok (.shr 10 11) ∧
    decode 0x5aa7#16 0x0000#16 = .ok (.rol 10 11) ∧
    decode 0x5aa8#16 0x0000#16 = .ok (.ror 10 11) ∧
    decode 0x5aa9#16 0x0000#16 = .ok (.tst 10 11) ∧
    decode 0x5aaa#16 0x0000#16 = .ok (.teq 10 11) ∧
    decode 0x05ab#16 0x0000#16 = .ok (.cmp 22 0) ∧
    decode 0x5aac#16 0x0000#16 = .ok (.cmn 10 11) := by decide

theorem test_decode_una :
    decode 0xfff0#16 0x0000#16 = .ok (.jmp (-1)) ∧
    decode 0x0030#16 0x0000#16 = .ok (.jmp 0) ∧
    decode 0x7ff0#16 0x0000#16 = .ok (.jmp 511) ∧
    decode 0x8030#16 0x0000#16 = .ok (.jmp (-512)) ∧
    decode 0x00f1#16 0x0000#16 = .ok (.jlt 3) ∧
    decode 0x00f2#16 0x0000#16 = .ok (.jle 3) ∧
    decode 0xfe73#16 0x0000#16 = .ok (.jgt (-7)) ∧
    decode 0x00f4#16 0x0000#16 = .ok (.jge 3) ∧
    decode 0x00f5#16 0x0000#16 = .ok (.jeq 3) ∧
    decode 0x01f6#16 0x0000#16 = .ok (.jne 7) ∧
    decode 0x017b#16 0x0000#16 = .ok (.swi 5) ∧
    decode 0x003b#16 0x0000#16 = .ok (.swi 0) ∧
    decode 0xfffb#16 0x0000#16 = .ok (.swi 1023) ∧
    decode 0x027c#16 0x0000#16 = .ok (.hwi 9) ∧
    decode 0x003d#16 0x0000#16 = .ok (.ire 0) ∧
    decode 0x007d#16 0x0000#16 = .ok (.ire 1) := by decide

theorem test_decode_imp_moves_memory_control :
    decode 0x0000#16 0x0000#16 = .ok (.impBrk 0 0x0000#16) ∧
    decode 0xb040#16 0x0009#16 = .ok (.impMov 22 0x0009#16) ∧
    decode 0xf840#16 0x8000#16 = .ok (.impMov 31 0x8000#16) ∧
    decode 0x2080#16 0x0100#16 = .ok (.impMtc ⟨.set, .ia⟩ 0x0100#16) ∧
    decode 0x3880#16 0x0000#16 = .ok (.impMtc ⟨.set, .fl⟩ 0x0000#16) ∧
    decode 0xf880#16 0x8000#16 = .ok (.impMtc ⟨.xor, .fl⟩ 0x8000#16) ∧
    decode 0x7880#16 0xbfff#16 = .ok (.impMtc ⟨.and, .fl⟩ 0xbfff#16) ∧
    decode 0x0080#16 0x0200#16 = .ok (.impMtc ⟨.set, .pc⟩ 0x0200#16) ∧
    decode 0x3080#16 0x0007#16 = .ok (.impMtc ⟨.set, .ir⟩ 0x0007#16) ∧
    decode 0x50c0#16 0x1234#16 = .ok (.impStr 10 0x1234#16) ∧
    decode 0xf900#16 0xbeef#16 = .ok (.impPsh 31 0xbeef#16) ∧
    decode 0x0940#16 0x0005#16 = .ok (.impSrl 1 0x0005#16) ∧
    decode 0x0140#16 0x0040#16 = .ok (.impSrl 0 0x0040#16) := by decide

theorem test_decode_imp_arithmetic :
    decode 0x5200#16 0x0001#16 = .ok (.impAdd 10 0x0001#16) ∧
    decode 0x5240#16 0x0000#16 = .ok (.impAdx 10 0x0000#16) ∧
    decode 0x5280#16 0x0001#16 = .ok (.impSub 10 0x0001#16) ∧
    decode 0x52c0#16 0x0000#16 = .ok (.impSbx 10 0x0000#16) ∧
    decode 0x5300#16 0x000a#16 = .ok (.impMul 10 0x000a#16) ∧
    decode 0x5340#16 0xfffe#16 = .ok (.impMli 10 0xfffe#16) ∧
    decode 0x5380#16 0x0003#16 = .ok (.impDiv 10 0x0003#16) ∧
    decode 0x53c0#16 0xfffe#16 = .ok (.impDvi 10 0xfffe#16) ∧
    decode 0x5400#16 0x000a#16 = .ok (.impMod 10 0x000a#16) ∧
    decode 0x5440#16 0x0010#16 = .ok (.impMdi 10 0x0010#16) ∧
    decode 0x5480#16 0x0100#16 = .ok (.impInc 10 0x0100#16) := by decide

theorem test_decode_imp_logic_test :
    decode 0x54c0#16 0x00ff#16 = .ok (.impAnd 10 0x00ff#16) ∧
    decode 0x5500#16 0x0034#16 = .ok (.impIor 10 0x0034#16) ∧
    decode 0x5540#16 0xffff#16 = .ok (.impXor 10 0xffff#16) ∧
    decode 0x5580#16 0x000f#16 = .ok (.impBic 10 0x000f#16) ∧
    decode 0x55c0#16 0x000c#16 = .ok (.impShl 10 0x000c#16) ∧
    decode 0x5600#16 0x0003#16 = .ok (.impAsr 10 0x0003#16) ∧
    decode 0x5640#16 0x0003#16 = .ok (.impShr 10 0x0003#16) ∧
    decode 0x5680#16 0x0008#16 = .ok (.impRol 10 0x0008#16) ∧
    decode 0x56c0#16 0x0008#16 = .ok (.impRor 10 0x0008#16) ∧
    decode 0x5700#16 0x8000#16 = .ok (.impTst 10 0x8000#16) ∧
    decode 0x5740#16 0x1234#16 = .ok (.impTeq 10 0x1234#16) ∧
    decode 0x5780#16 0x000a#16 = .ok (.impCmp 10 0x000a#16) ∧
    decode 0x57c0#16 0x0001#16 = .ok (.impCmn 10 0x0001#16) := by decide

/-- The words of section L2.2 with the other modes of `mfc`. -/
theorem test_decode_access_modes : decode 0xba83#16 0 = .ok (.mfc 10 ⟨.ior, .fl⟩) ∧
    decode 0xca83#16 0 = .ok (.mfc 10 ⟨.xor, .ex⟩) ∧ decode 0x5402#16 0 = .ok (.mtc ⟨.ior, .pc⟩ 10) := by decide

/-- The corner cases of section L2.1. -/
theorem test_decode_corner_cases : decode 0x0000#16 0xffff#16 = .ok (.impBrk 0 0xffff#16) ∧
    decode 0xf800#16 0x1234#16 = .ok (.impBrk 31 0x1234#16) ∧ decode 0x5a83#16 0 = .ok (.mfc 10 ⟨.and, .c3⟩) ∧
    decode 0x0003#16 0 = .ok (.mfc 0 ⟨.set, .pc⟩) ∧ decode 0x0033#16 0 = .ok (.jgt 0) := by decide

/-- The unassigned codes of section L2.1. -/
theorem test_decode_unassigned : decode 0xffff#16 0 = .error (.unassignedUna 0x3f) ∧
    decode 0x000a#16 0 = .error (.unassignedOrd 0x0a) ∧ decode 0x001c#16 0 = .error (.unassignedOrd 0x1c) ∧
    decode 0x002d#16 0 = .error (.unassignedOrd 0x2d) ∧ decode 0x0037#16 0 = .error (.unassignedUna 0x37) ∧
    decode 0x003e#16 0 = .error (.unassignedUna 0x3e) ∧ decode 0x0180#16 0x0001#16 = .error (.unassignedImp 6) ∧
    decode 0x01c0#16 0x0001#16 = .error (.unassignedImp 7) := by decide

theorem test_decode_truncated : decodeWords [0xb040#16] = .error .truncated ∧
    decodeWords [] = .error .truncated := by decide

/-- Table words: `imp mov a0, 9` as bits 31 to 0, and as the 16 bits of its first word alone. -/
theorem test_table_word : decodeTableWord 32 0x0009b040 = some (.impMov 22 0x0009#16) ∧
    decodeTableWord 16 0x0009b040 = some (.impMov 22 0x0000#16) ∧ decodeTableWord 16 0x9a90 = some (.add 10 19) ∧
    decodeTableWord 16 0xffff = none := by decide

/-! One step from a small state. -/

/-- The step has a next state that satisfies the check. -/
def runs (s : State) (check : State → Bool) : Bool :=
  match step s with
  | .next t => check t
  | .fault _ => false
  | .refused _ => false

/-- The reset state with PC at 0x0010, t0, t1 and EX set, and an instruction there. -/
def ready (w n x y ex : Word) : State :=
  placeWords (((({ State.reset with pc := 0x0010#16 } : State).setEx ex).setReg 10 x).setReg 11 y) w n

/-- One step of an instruction on t0, t1 and EX leaves t0 and EX so, t1 alone, and PC after it. -/
def gives (w n x y ex x' ex' : Word) : Bool :=
  runs (ready w n x y ex) fun t => t.reg 10 == x' && t.ex == ex' && t.reg 11 == y &&
    t.pc == (if opcodeOf w = 0 then 0x0012#16 else 0x0011#16)


/-! Arithmetic, logic, shifts, tests: sections L2.4, L2.5, L2.6. -/

theorem test_add : gives 0x5a90#16 0x0000#16 0xffff#16 0x0001#16 0x5555#16 0x0000#16 0x0001#16 = true ∧
    gives 0x5a90#16 0x0000#16 0x7fff#16 0x0001#16 0x5555#16 0x8000#16 0x0000#16 = true := by decide
theorem test_adx : gives 0x5a91#16 0x0000#16 0xffff#16 0xffff#16 0xffff#16 0xfffd#16 0x0002#16 = true ∧
    gives 0x5a91#16 0x0000#16 0x0000#16 0x0000#16 0x0000#16 0x0000#16 0x0000#16 = true := by decide
theorem test_sub : gives 0x5a92#16 0x0000#16 0x0003#16 0x0005#16 0x5555#16 0xfffe#16 0xffff#16 = true ∧
    gives 0x5a92#16 0x0000#16 0x8000#16 0x0001#16 0x5555#16 0x7fff#16 0x0000#16 = true := by decide
theorem test_sbx : gives 0x5a93#16 0x0000#16 0x0005#16 0x0003#16 0xffff#16 0x0001#16 0x0001#16 = true ∧
    gives 0x5a93#16 0x0000#16 0x0003#16 0x0005#16 0x0000#16 0xfffe#16 0xffff#16 = true := by decide
theorem test_mul : gives 0x5a94#16 0x0000#16 0xffff#16 0xffff#16 0x5555#16 0x0001#16 0xfffe#16 = true := by decide
theorem test_mli : gives 0x5a95#16 0x0000#16 0xfffe#16 0x0003#16 0x5555#16 0xfffa#16 0xffff#16 = true ∧
    gives 0x5a95#16 0x0000#16 0x8000#16 0x7fff#16 0x5555#16 0x8000#16 0xc000#16 = true := by decide
theorem test_div : gives 0x5a96#16 0x0000#16 0x0007#16 0x0002#16 0x5555#16 0x0003#16 0x8000#16 = true ∧
    gives 0x5a96#16 0x0000#16 0x0064#16 0x0007#16 0x5555#16 0x000e#16 0x4924#16 = true := by decide
theorem test_dvi : gives 0x5a97#16 0x0000#16 0xfff9#16 0x0002#16 0x5555#16 0xfffc#16 0x8000#16 = true ∧
    gives 0x5a97#16 0x0000#16 0xffff#16 0x0003#16 0x5555#16 0xffff#16 0xaaab#16 = true := by decide
theorem test_mod : gives 0x5a98#16 0x0000#16 0xffff#16 0x0010#16 0x5555#16 0x000f#16 0x5555#16 = true ∧
    gives 0x5a98#16 0x0000#16 0x0007#16 0x0000#16 0x5555#16 0x0000#16 0x5555#16 = true := by decide
theorem test_mdi : gives 0x5a99#16 0x0000#16 0x0007#16 0xfffd#16 0x5555#16 0x0001#16 0x5555#16 = true ∧
    gives 0x5a99#16 0x0000#16 0xfff9#16 0xfffd#16 0x5555#16 0xffff#16 0x5555#16 = true ∧
    gives 0x5a99#16 0x0000#16 0x0007#16 0x0000#16 0x5555#16 0x0000#16 0x5555#16 = true := by decide
theorem test_gbs : gives 0x5a9b#16 0x0000#16 0x0000#16 0x0001#16 0x5555#16 0x0000#16 0x5555#16 = true ∧
    gives 0x5a9b#16 0x0000#16 0x0000#16 0x8000#16 0x5555#16 0x000f#16 0x5555#16 = true := by decide
theorem test_imp_add : gives 0x5200#16 0x0001#16 0xffff#16 0x0000#16 0x5555#16 0x0000#16 0x0001#16 = true := by decide
theorem test_imp_adx : gives 0x5240#16 0x0000#16 0x0000#16 0x0000#16 0x0001#16 0x0001#16 0x0000#16 = true := by decide
theorem test_imp_sub : gives 0x5280#16 0x0001#16 0x0000#16 0x0000#16 0x5555#16 0xffff#16 0xffff#16 = true := by decide
theorem test_imp_sbx : gives 0x52c0#16 0x0000#16 0x0000#16 0x0000#16 0xffff#16 0xffff#16 0x0000#16 = true := by decide
theorem test_imp_mul : gives 0x5300#16 0x000a#16 0x2000#16 0x0000#16 0x5555#16 0x4000#16 0x0001#16 = true := by decide
theorem test_imp_mli : gives 0x5340#16 0xfffe#16 0x0003#16 0x0000#16 0x5555#16 0xfffa#16 0xffff#16 = true := by decide
theorem test_imp_div : gives 0x5380#16 0x0003#16 0x0001#16 0x0000#16 0x5555#16 0x0000#16 0x5555#16 = true := by decide
theorem test_imp_dvi : gives 0x53c0#16 0xfffe#16 0x0007#16 0x0000#16 0x5555#16 0xfffc#16 0x8000#16 = true := by decide
theorem test_imp_mod : gives 0x5400#16 0x000a#16 0x04d2#16 0x0000#16 0x5555#16 0x0004#16 0x5555#16 = true := by decide
theorem test_imp_mdi : gives 0x5440#16 0x0010#16 0xfff9#16 0x0000#16 0x5555#16 0xfff9#16 0x5555#16 = true := by decide
theorem test_imp_inc : gives 0x5480#16 0x0100#16 0xff80#16 0x0000#16 0x5555#16 0x0080#16 0x5555#16 = true := by decide
theorem test_and : gives 0x5aa0#16 0x0000#16 0xf0f0#16 0xff00#16 0x5555#16 0xf000#16 0x5555#16 = true := by decide
theorem test_ior : gives 0x5aa1#16 0x0000#16 0xf0f0#16 0x0f00#16 0x5555#16 0xfff0#16 0x5555#16 = true := by decide
theorem test_xor : gives 0x5aa2#16 0x0000#16 0xffff#16 0x00ff#16 0x5555#16 0xff00#16 0x5555#16 = true := by decide
theorem test_bic : gives 0x5aa3#16 0x0000#16 0xffff#16 0x00f0#16 0x5555#16 0xff0f#16 0x5555#16 = true := by decide
theorem test_shl : gives 0x5aa4#16 0x0000#16 0x1234#16 0x0004#16 0x5555#16 0x2340#16 0x0001#16 = true ∧
    gives 0x5aa4#16 0x0000#16 0xffff#16 0x0011#16 0x5555#16 0x0000#16 0xfffe#16 = true := by decide
theorem test_shr : gives 0x5aa6#16 0x0000#16 0x1234#16 0x0004#16 0x5555#16 0x0123#16 0x4000#16 = true ∧
    gives 0x5aa6#16 0x0000#16 0xffff#16 0x0011#16 0x5555#16 0x0000#16 0x7fff#16 = true := by decide
theorem test_asr : gives 0x5aa5#16 0x0000#16 0xf234#16 0x0004#16 0x5555#16 0xff23#16 0x4000#16 = true ∧
    gives 0x5aa5#16 0x0000#16 0x8000#16 0x001f#16 0x5555#16 0xffff#16 0xffff#16 = true := by decide
theorem test_rol : gives 0x5aa7#16 0x0000#16 0x1234#16 0x0004#16 0x5555#16 0x2341#16 0x5555#16 = true ∧
    gives 0x5aa7#16 0x0000#16 0x1234#16 0x0014#16 0x5555#16 0x2341#16 0x5555#16 = true := by decide
theorem test_ror : gives 0x5aa8#16 0x0000#16 0x1234#16 0x0004#16 0x5555#16 0x4123#16 0x5555#16 = true ∧
    gives 0x5aa8#16 0x0000#16 0x1234#16 0x0014#16 0x5555#16 0x4123#16 0x5555#16 = true := by decide
theorem test_tst : gives 0x5aa9#16 0x0000#16 0x8001#16 0x8000#16 0x5555#16 0x8001#16 0x8000#16 = true := by decide
theorem test_teq : gives 0x5aaa#16 0x0000#16 0x8000#16 0x0001#16 0x5555#16 0x8000#16 0x8001#16 = true := by decide
theorem test_cmp : gives 0x5aab#16 0x0000#16 0x0003#16 0x0005#16 0x5555#16 0x0003#16 0xfffe#16 = true ∧
    gives 0x5aab#16 0x0000#16 0x7fff#16 0xffff#16 0x5555#16 0x7fff#16 0x8000#16 = true := by decide
theorem test_cmn : gives 0x5aac#16 0x0000#16 0x7fff#16 0x0001#16 0x5555#16 0x7fff#16 0x8000#16 = true ∧
    gives 0x5aac#16 0x0000#16 0x0005#16 0xfffb#16 0x5555#16 0x0005#16 0x0000#16 = true := by decide
theorem test_imp_and : gives 0x54c0#16 0x00ff#16 0x1234#16 0x0000#16 0x5555#16 0x0034#16 0x5555#16 = true := by decide
theorem test_imp_ior : gives 0x5500#16 0x0034#16 0x1200#16 0x0000#16 0x5555#16 0x1234#16 0x5555#16 = true := by decide
theorem test_imp_xor : gives 0x5540#16 0xffff#16 0x1234#16 0x0000#16 0x5555#16 0xedcb#16 0x5555#16 = true := by decide
theorem test_imp_bic : gives 0x5580#16 0x000f#16 0x1234#16 0x0000#16 0x5555#16 0x1230#16 0x5555#16 = true := by decide
theorem test_imp_shl : gives 0x55c0#16 0x000c#16 0x00ff#16 0x0000#16 0x5555#16 0xf000#16 0x000f#16 = true := by decide
theorem test_imp_asr : gives 0x5600#16 0x0003#16 0x8000#16 0x0000#16 0x5555#16 0xf000#16 0x0000#16 = true := by decide
theorem test_imp_shr : gives 0x5640#16 0x0003#16 0x8000#16 0x0000#16 0x5555#16 0x1000#16 0x0000#16 = true := by decide
theorem test_imp_rol : gives 0x5680#16 0x0008#16 0x1234#16 0x0000#16 0x5555#16 0x3412#16 0x5555#16 = true := by decide
theorem test_imp_ror : gives 0x56c0#16 0x0008#16 0x1234#16 0x0000#16 0x5555#16 0x3412#16 0x5555#16 = true := by decide
theorem test_imp_tst : gives 0x5700#16 0x8000#16 0x9234#16 0x0000#16 0x5555#16 0x9234#16 0x8000#16 = true := by decide
theorem test_imp_teq : gives 0x5740#16 0x1234#16 0x1234#16 0x0000#16 0x5555#16 0x1234#16 0x0000#16 = true := by decide
theorem test_imp_cmp : gives 0x5780#16 0x000a#16 0x0007#16 0x0000#16 0x5555#16 0x0007#16 0xfffd#16 = true := by decide
theorem test_imp_cmn : gives 0x57c0#16 0x0001#16 0xffff#16 0x0000#16 0x5555#16 0xffff#16 0x0000#16 = true := by decide
/-- `inc` and its wrap (section L2.4). -/
theorem test_inc : gives 0x7a9a#16 0#16 0xfff8#16 0#16 0x5555#16 0x0007#16 0x5555#16 = true ∧
    gives 0x829a#16 0#16 0x0010#16 0#16 0x5555#16 0x0000#16 0x5555#16 = true := by decide

/-- A destination r0 leaves EX written and no register (section L2.4). -/
theorem test_sub_to_zero_register :
    gives 0x5812#16 0#16 0x1234#16 0x0001#16 0x5555#16 0x1234#16 0xffff#16 = true := by decide

/-- The same register twice (section L2.4). -/
theorem test_same_register_twice :
    gives 0x5290#16 0#16 0x8001#16 0#16 0#16 0x0002#16 0x0001#16 = true ∧
    gives 0x5296#16 0#16 0x0007#16 0#16 0#16 0x0001#16 0x0000#16 = true := by decide

/-- A division by zero: Ra is 0xffff; EX is not fixed (section L2.4). -/
theorem test_div_by_zero :
    runs (ready 0x5a96#16 0#16 0x0007#16 0#16 0#16) (fun t => t.reg 10 == 0xffff#16 && t.draws == 1) = true ∧
    runs (ready 0x5a97#16 0#16 0x0007#16 0#16 0#16) (fun t => t.reg 10 == 0xffff#16 && t.draws == 1) = true ∧
    runs (ready 0x5380#16 0#16 0x0005#16 0#16 0#16) (fun t => t.reg 10 == 0xffff#16 && t.draws == 1) = true := by
  decide

/-- `gbs` of zero goes on, and leaves EX alone (section L2.4). -/
theorem test_gbs_of_zero :
    runs (ready 0x5a9b#16 0#16 0x1234#16 0#16 0x5555#16)
      (fun t => t.ex == 0x5555#16 && t.pc == 0x0011#16 && t.draws == 1) = true := by decide

/-! Moves and control registers: section L2.2. -/

/-- The state of `ready` with FL. -/
def readyFl (w n x y ex fl : Word) : State := { ready w n x y ex with fl := fl }

theorem test_mov : gives 0x5a81#16 0#16 0x1234#16 0x4321#16 0x5555#16 0x4321#16 0x5555#16 = true ∧
    gives 0x0001#16 0#16 0x1234#16 0x4321#16 0x5555#16 0x1234#16 0x5555#16 = true := by decide

theorem test_imp_mov : runs (ready 0xb040#16 0x0009#16 0#16 0#16 0#16)
      (fun t => t.reg 22 == 0x0009#16 && t.pc == 0x0012#16) = true ∧
    runs (ready 0x0040#16 0x1234#16 0#16 0#16 0#16) (fun t => t.reg 0 == 0#16 && t.pc == 0x0012#16) = true := by
  decide

theorem test_mtc_fl_modes :
    runs (readyFl 0x51c2#16 0#16 0x8001#16 0#16 0#16 0x0001#16) (fun t => t.fl == 0x8001#16) = true ∧
    runs (readyFl 0x55c2#16 0#16 0x8000#16 0#16 0#16 0x0001#16) (fun t => t.fl == 0x8001#16) = true ∧
    runs (readyFl 0x53c2#16 0#16 0x7fff#16 0#16 0#16 0xc001#16) (fun t => t.fl == 0x4001#16) = true ∧
    runs (readyFl 0x57c2#16 0#16 0x0001#16 0#16 0#16 0x0001#16) (fun t => t.fl == 0x0000#16) = true := by decide

theorem test_mtc_ignored_in_user_mode :
    runs (readyFl 0x55c2#16 0#16 0x8000#16 0#16 0#16 0x0000#16)
      (fun t => t.fl == 0x0000#16 && t.pc == 0x0011#16) = true := by decide

theorem test_imp_mtc :
    runs (ready 0x2080#16 0x0100#16 0#16 0#16 0#16) (fun t => t.ia == 0x0100#16) = true ∧
    runs (readyFl 0x7880#16 0xbfff#16 0#16 0#16 0#16 0xc001#16) (fun t => t.fl == 0x8001#16) = true ∧
    runs (ready 0x0080#16 0x0200#16 0#16 0#16 0#16) (fun t => t.pc == 0x0200#16) = true ∧
    runs (readyFl 0x0080#16 0x0200#16 0#16 0#16 0#16 0x0000#16) (fun t => t.pc == 0x0012#16) = true := by decide

theorem test_mfc :
    runs (ready 0x0283#16 0#16 0#16 0#16 0#16) (fun t => t.reg 10 == 0x0011#16) = true ∧
    runs (readyFl 0x3a83#16 0#16 0x1234#16 0#16 0#16 0x0000#16) (fun t => t.reg 10 == 0x0000#16) = true ∧
    runs (readyFl 0x7a83#16 0#16 0x8000#16 0#16 0#16 0xc001#16)
      (fun t => t.reg 10 == 0x8000#16 && t.fl == 0xc001#16) = true ∧
    runs (ready 0xca83#16 0#16 0xffff#16 0#16 0x00ff#16)
      (fun t => t.reg 10 == 0xff00#16 && t.ex == 0x00ff#16) = true := by decide

/-- A read of reserved c3 goes on and draws a free value; a write of it changes no control register. -/
theorem test_reserved_control_register :
    runs (ready 0x5a83#16 0#16 0#16 0#16 0#16) (fun t => t.draws == 1 && t.pc == 0x0011#16) = true ∧
    runs (ready 0x50c2#16 0#16 0x1234#16 0#16 0#16) (fun t => t.c3 == 0#16 && t.pc == 0x0011#16) = true := by
  decide

/-! Loads, stores, stacks: section L2.3. -/

/-- The state of `ready` with r1, sp and one word of memory. -/
def readyMem (w n x y ra sp at_ v : Word) : State := (((ready w n x y 0#16).setReg 1 ra).setReg 31 sp).store at_ v

theorem test_str : runs (ready 0x5a84#16 0#16 0x2000#16 0xabcd#16 0#16) (fun t => t.load 0x2000#16 == 0xabcd#16) = true ∧
    runs (ready 0x5804#16 0#16 0#16 0xabcd#16 0#16) (fun t => t.load 0x0000#16 == 0xabcd#16) = true := by decide

theorem test_psh : runs (readyMem 0x0fc5#16 0#16 0#16 0#16 0x0004#16 0x0000#16 0#16 0#16)
      (fun t => t.reg 31 == 0xffff#16 && t.load 0xffff#16 == 0x0004#16) = true ∧
    runs (ready 0x5285#16 0#16 0x2000#16 0#16 0#16)
      (fun t => t.reg 10 == 0x1fff#16 && t.load 0x1fff#16 == 0x1fff#16) = true := by decide

theorem test_loa : runs (readyMem 0x5a86#16 0#16 0#16 0x2000#16 0#16 0#16 0x2000#16 0xabcd#16)
    (fun t => t.reg 10 == 0xabcd#16) = true := by decide

theorem test_pop : runs (readyMem 0xfa87#16 0#16 0#16 0#16 0#16 0xffff#16 0xffff#16 0x0055#16)
      (fun t => t.reg 10 == 0x0055#16 && t.reg 31 == 0x0000#16) = true ∧
    runs (readyMem 0x5287#16 0#16 0x2000#16 0#16 0#16 0#16 0x2000#16 0x0041#16)
      (fun t => t.reg 10 == 0x0042#16) = true := by decide

theorem test_mom : runs (readyMem 0x5a88#16 0#16 0x3000#16 0x2000#16 0#16 0#16 0x2000#16 0xabcd#16)
      (fun t => t.load 0x3000#16 == 0xabcd#16 && t.reg 10 == 0x3001#16 && t.reg 11 == 0x2001#16) = true ∧
    runs (readyMem 0x5288#16 0#16 0x2000#16 0#16 0#16 0#16 0x2000#16 0xabcd#16)
      (fun t => t.load 0x2000#16 == 0xabcd#16 && t.reg 10 == 0x2002#16) = true := by decide

theorem test_imp_str : runs (ready 0x50c0#16 0x1234#16 0x2000#16 0#16 0#16)
      (fun t => t.load 0x2000#16 == 0x1234#16) = true ∧
    runs (ready 0x50c0#16 0x1234#16 0x0011#16 0#16 0#16) (fun t => t.load 0x0011#16 == 0x1234#16) = true := by decide

theorem test_imp_psh : runs (readyMem 0xf900#16 0xbeef#16 0#16 0#16 0#16 0x8000#16 0#16 0#16)
    (fun t => t.reg 31 == 0x7fff#16 && t.load 0x7fff#16 == 0xbeef#16) = true := by decide

/-- Octets of a word, most significant first (R62, D1). -/
theorem test_octet_order : (State.reset.store 0x0001#16 0xabcd#16).mem = [(2, 0xab#8), (3, 0xcd#8)] ∧
    ((State.reset.store 0x0001#16 0xabcd#16).store 0x0001#16 0x0000#16).mem = [] := by decide

/-! Control transfer: section L2.7. -/

theorem test_srl : runs (ready 0x5049#16 0#16 0x0100#16 0#16 0#16)
      (fun t => t.pc == 0x0100#16 && t.reg 1 == 0x0011#16) = true ∧
    runs (ready 0x5289#16 0#16 0x0100#16 0#16 0#16) (fun t => t.pc == 0x0011#16 && t.reg 10 == 0x0011#16) = true := by
  decide

theorem test_imp_srl : runs (ready 0x0940#16 0x0005#16 0#16 0#16 0#16)
      (fun t => t.pc == 0x0005#16 && t.reg 1 == 0x0012#16) = true ∧
    runs (ready 0x0140#16 0x0040#16 0#16 0#16 0#16) (fun t => t.pc == 0x0040#16) = true := by decide

theorem test_jmp : runs (ready 0x7ff0#16 0#16 0#16 0#16 0#16) (fun t => t.pc == 0x0210#16) = true ∧
    runs (ready 0x8030#16 0#16 0#16 0#16 0#16) (fun t => t.pc == 0xfe11#16) = true := by decide

/-- One conditional jump by 3 under EX 0x0000, 0x0001, 0x7fff, 0x8000 and 0xffff: taken or not. -/
def jumpRow (w : Word) (taken : List Bool) : Bool :=
  List.zipWith (fun ex k => runs (ready w 0#16 0#16 0#16 ex)
      fun t => t.pc == (if k then 0x0014#16 else 0x0011#16) && t.ex == ex)
    [0x0000#16, 0x0001#16, 0x7fff#16, 0x8000#16, 0xffff#16] taken == [true, true, true, true, true]

theorem test_jlt : jumpRow 0x00f1#16 [false, false, false, true, true] = true := by decide
theorem test_jle : jumpRow 0x00f2#16 [true, false, false, true, true] = true := by decide
theorem test_jgt : jumpRow 0x00f3#16 [false, true, true, false, false] = true := by decide
theorem test_jge : jumpRow 0x00f4#16 [true, true, true, false, false] = true := by decide
theorem test_jeq : jumpRow 0x00f5#16 [true, false, false, false, false] = true := by decide
theorem test_jne : jumpRow 0x00f6#16 [false, true, true, true, true] = true := by decide

/-! Interrupts: section L2.8. -/

/-- The state of `readyFl` with IA = 0x0100, IR = 0x0201 and a schedule of requests. -/
def readyInt (w fl : Word) (requests : List (Option Word)) : State :=
  { readyFl w 0#16 0#16 0#16 0x5555#16 fl with ia := 0x0100#16, ir := 0x0201#16, requests := requests }

theorem test_swi : runs (readyInt 0x017b#16 0x0000#16 [])
      (fun t => t.ir == 0x0011#16 && t.pc == 0x0100#16 && t.im == 0x0005#16 && t.fl == 0x8001#16) = true ∧
    runs (readyInt 0xfffb#16 0x4001#16 []) (fun t => t.im == 0x03ff#16 && t.fl == 0xc001#16) = true := by decide

theorem test_hwi : runs (readyInt 0x027c#16 0x0001#16 [])
      (fun t => t.hwiEvents == [⟨0x0009#16, 1⟩] && t.pc == 0x0011#16 && t.fl == 0x0001#16) = true ∧
    runs (readyInt 0x027c#16 0x0000#16 []) (fun t => t.hwiEvents == [] && t.pc == 0x0011#16) = true := by decide

theorem test_ire : runs (readyInt 0x007d#16 0xc001#16 []) (fun t => t.pc == 0x0201#16 && t.fl == 0x4000#16) = true ∧
    runs (readyInt 0x003d#16 0x8001#16 []) (fun t => t.pc == 0x0201#16 && t.fl == 0x0001#16) = true := by decide

theorem test_imp_brk : runs (readyInt 0x0000#16 0x0000#16 [])
    (fun t => t.ir == 0x0012#16 && t.pc == 0x0100#16 && t.im == 0xffff#16 && t.fl == 0x8001#16) = true := by decide

/-- An external request before an `add` that has not executed, in either mode. -/
theorem test_hardware_interrupt : runs (readyInt 0x5a90#16 0x0001#16 [some 0x0042#16])
      (fun t => t.ir == 0x0010#16 && t.pc == 0x0100#16 && t.im == 0x0042#16 && t.fl == 0xc001#16 &&
        t.ex == 0x5555#16) = true ∧
    runs (readyInt 0x5a90#16 0x0000#16 [some 0x0042#16]) (fun t => t.fl == 0xc001#16) = true := by decide

/-- With FL.I = 1 the request is not taken, and is gone. -/
theorem test_masked_request : runs (readyInt 0x5a90#16 0x8001#16 [some 0x0042#16])
    (fun t => t.pc == 0x0011#16 && t.im == 0x0000#16 && t.requests == []) = true := by decide

/-- A reaction to an event (R283): a register write and an interrupt presented at the next step; or a stop. -/
theorem test_hwi_reaction :
    runs { readyInt 0x027c#16 0x0001#16 [] with hwiReactions := [[.writeReg 10 0x0077#16, .request 0x0042#16]] }
      (fun t => t.reg 10 == 0x0077#16 && t.requests == [some 0x0042#16] && t.hwiReactions == []) = true ∧
    step { readyInt 0x027c#16 0x0001#16 [] with hwiReactions := [[.stop]] } = .fault .platformStop :=
  ⟨by decide, rfl⟩

/-- An unassigned code faults by name (section L2.1, R105). -/
theorem test_unassigned_faults : step (ready 0x000a#16 0#16 0#16 0#16 0#16) = .fault (.unassignedOpcode 0x000a#16) :=
  rfl

/-- PC wraps while a two-word instruction is fetched (R28): the second word lies at 0x0000. -/
theorem test_fetch_wraps : runs (placeWords { State.reset with pc := 0xffff#16 } 0xb040#16 0x0009#16)
    (fun t => t.reg 22 == 0x0009#16 && t.pc == 0x0001#16) = true := by decide

/-- A word placed after reset is the first instruction executed. -/
theorem test_with_fetch_word : runs (State.reset.withFetchWord 32 0x0009b040)
      (fun t => t.reg 22 == 0x0009#16 && t.pc == 0x0002#16) = true ∧
    runs (State.reset.withFetchWord 16 0x7a9a) (fun t => t.reg 10 == 0x000f#16 && t.pc == 0x0001#16) = true := by decide

/-- The end of a run (R345). -/
theorem test_finished : finished (ready 0xfff0#16 0#16 0#16 0#16 0#16) = true ∧
    finished (ready 0x0030#16 0#16 0#16 0#16 0#16) = false := by decide

/-- Texts of section L2.1. -/
theorem test_assembly_text : asmText (.mov 18 0) = "mov v0, zr" ∧ asmText (.jmp (-1)) = "jmp -1" := by decide

/-- The label operands of section L1.2: `jne _ret` at 0x000a, `jgt _loop` at 0x0011. -/
theorem test_label_offset : labelOffset 0x000a#16 0x0012#16 = some 7 ∧
    labelOffset 0x0011#16 0x000b#16 = some (-7) := by decide

/-! Other configurations: section L2.9. -/

/-- The alternative of every parameter that has one, the default octet order and `DIV0_EX` kept, another reset. -/
def otherParams : Config :=
  { params with
    exAddendExt := .sign, dviRound := .floor, mdiSign := .divisor, gbsSource := .field,
    gbsOfZero := fun _ => 0x0007#16, shiftCount := .low4, rotCount := fun _ => 0, unaMsgExt := .sign,
    reservedRead := fun _ held => held, flReserved := .readZero, resetPc := 0x0100#16, resetFl := 0x8001#16,
    resetRegs := Vector.replicate 31 0x5555#16, resetIa := 0x0200#16, resetMem := [(0x200, 0xff#8)] }

/-- `runs` under a configuration. -/
def runsWith (p : Config) (s : State) (check : State → Bool) : Bool :=
  match stepWith p s with
  | .next t => check t
  | .fault _ => false
  | .refused _ => false

/-- The vectors of section L2.9 under the alternatives. -/
theorem test_alternatives_arithmetic :
    runsWith otherParams (ready 0x5a93#16 0#16 0x0005#16 0x0003#16 0xffff#16)
      (fun t => t.reg 10 == 0x0001#16 && t.ex == 0x0000#16) = true ∧
    runsWith otherParams (ready 0x5a91#16 0#16 0x0005#16 0x0003#16 0xffff#16)
      (fun t => t.reg 10 == 0x0007#16 && t.ex == 0x0000#16) = true ∧
    runsWith otherParams (ready 0x5a97#16 0#16 0xffff#16 0x0003#16 0#16) (fun t => t.ex == 0xaaaa#16) = true ∧
    runsWith otherParams (ready 0x5a99#16 0#16 0xfff9#16 0x0003#16 0#16) (fun t => t.reg 10 == 0x0002#16) = true := by
  decide

theorem test_alternatives_counts_and_messages :
    runsWith otherParams (ready 0x5aa4#16 0#16 0xffff#16 0x0011#16 0#16)
      (fun t => t.reg 10 == 0xfffe#16 && t.ex == 0x0001#16) = true ∧
    runsWith otherParams (ready 0x5a9b#16 0#16 0#16 0x0100#16 0#16) (fun t => t.reg 10 == 0x0003#16) = true ∧
    runsWith otherParams (ready 0xfffb#16 0#16 0#16 0#16 0#16) (fun t => t.im == 0xffff#16) = true ∧
    runsWith otherParams (ready 0x5aa7#16 0#16 0x1234#16 0x0014#16 0#16) (fun t => t.reg 10 == 0x1234#16) = true := by
  decide

/-- A region of the platform map: a fetch, a load and a store there stop, and a store beside it does not. -/
theorem test_platform_map :
    stepWith { params with platformMap := [⟨0x0010, 1⟩] } (ready 0x5a84#16 0#16 0x2000#16 0#16 0#16) =
      .refused (.platformRegion 0x0010#16) ∧
    stepWith { params with platformMap := [⟨0x2000, 2⟩] } (ready 0x5a84#16 0#16 0x2001#16 0#16 0#16) =
      .refused (.platformRegion 0x2001#16) ∧
    stepWith { params with platformMap := [⟨0x2000, 2⟩] } (ready 0x5a86#16 0#16 0#16 0x2000#16 0#16) =
      .refused (.platformRegion 0x2000#16) ∧
    runsWith { params with platformMap := [⟨0x2000, 2⟩] } (ready 0x5a84#16 0#16 0x2002#16 0xabcd#16 0#16)
      (fun t => t.load 0x2002#16 == 0xabcd#16) = true := ⟨rfl, rfl, rfl, by decide⟩

/-- The end of a run (R345) is read in the configuration's octet order, and not in a region of the platform. -/
theorem test_finished_other_parameters :
    finished (placeWords State.reset 0xfff0#16 0#16 { params with octetOrder := .lsFirst })
      { params with octetOrder := .lsFirst } = true ∧
    finished (placeWords State.reset 0xf0ff#16 0#16 { params with octetOrder := .lsFirst })
      { params with octetOrder := .lsFirst } = false ∧
    finished (ready 0xfff0#16 0#16 0#16 0#16 0#16) { params with platformMap := [⟨0x0010, 1⟩] } = false := by decide

/-- Under `readZero` a reaction's write of FL keeps only I, H and S, and its write of c2 is dropped (log 9). -/
theorem test_reaction_writes_as_mtc : performActs State.reset [.writeCreg .fl 0xffff#16, .writeCreg .c2 0x1234#16]
    otherParams = some { State.reset with fl := 0xc001#16 } := rfl

/-- `UNASSIGNED_OP` and the reset parameters. -/
theorem test_other_parameters :
    stepWith { params with unassignedOp := .refuse } (ready 0x000a#16 0#16 0#16 0#16 0#16) =
      .refused (.unassignedCode 0x000a#16) ∧
    (State.resetWith otherParams).pc = 0x0100#16 ∧ (State.resetWith otherParams).ignoring = true ∧
    (State.resetWith otherParams).reg 31 = 0x5555#16 ∧ (State.resetWith otherParams).load 0x0100#16 = 0xff00#16 ∧
    (State.resetWith { params with octetOrder := .lsFirst, resetMem := [(0x200, 0xff#8)] }).load 0x0100#16
      { params with octetOrder := .lsFirst } = 0x00ff#16 := by
  refine ⟨rfl, ?_, ?_, ?_, ?_, ?_⟩ <;> decide

/-! Witnesses: for each statement with hypotheses, a state and operands that meet them. -/

theorem witness_DecodeInvertsEncode : (Instr.inc 10 (-16)).wellFormed = true ∧
    decodeWords (encode (.inc 10 (-16)) ++ [0xfff0#16]) = .ok (.inc 10 (-16), [0xfff0#16]) := by decide

theorem witness_EncodeInvertsDecode_two_words : decode 0xf800#16 0x1234#16 = .ok (.impBrk 31 0x1234#16) ∧
    encode (.impBrk 31 0x1234#16) = [0xf800#16, 0x1234#16] := by decide

theorem witness_EncodeInvertsDecode_one_word : decode 0x829a#16 0x1234#16 = .ok (.inc 10 (-16)) ∧
    encode (.inc 10 (-16)) = [0x829a#16] := by decide

theorem witness_OpcodeTable_row : decode 0x07c0#16 0#16 = .ok (.impCmn 0 0#16) ∧
    ∃ r ∈ opcodeTable, r.covers 0x07c0#16 = true ∧ r.mnemonic = "imp_cmn" := by decide

theorem witness_OpcodeTable_none : decode 0x0180#16 0#16 = .error (.unassignedImp 6) ∧
    ∀ r ∈ opcodeTable, r.covers 0x0180#16 = false := by decide

theorem witness_UnassignedCodes : decode 0xf80f#16 0#16 = .error (.unassignedOrd 0x0f) ∧
    decode 0x003f#16 0#16 = .error (.unassignedUna 0x3f) ∧
    decode 0xf9c0#16 0#16 = .error (.unassignedImp 7) := by decide

theorem witness_Length_two : decodeWords [0xb040#16, 0x0009#16, 0xfff0#16] = .ok (.impMov 22 0x0009#16, [0xfff0#16]) := by
  decide

theorem witness_Length_one : decodeWords [0xfff0#16, 0x0009#16] = .ok (.jmp (-1), [0x0009#16]) := by decide

theorem witness_PushThenPop : (31 : Reg) ≠ 0 ∧ (11 : Reg) ≠ 31 ∧ (10 : Reg) ≠ 31 := by decide

theorem witness_ZeroRegister : (1 : Reg) ≠ 0 ∧ (State.reset.setReg 1 0x0004#16).reg 1 = 0x0004#16 ∧
    (State.reset.setReg 1 0x0004#16).reg 31 = 0x0000#16 := by decide

theorem witness_OnlyStoring : (Instr.loa 10 11).storesMemory = false ∧
    exec (.loa 10 11) State.reset = .next (State.reset.setReg 10 0#16) := ⟨by decide, rfl⟩

/-- A store at PC, and a store at the address after it with an IMP instruction's first word at PC. -/
theorem witness_StoreIsSeen :
    (ready 0#16 0#16 0x0010#16 0#16 0#16).reg 10 = (ready 0#16 0#16 0x0010#16 0#16 0#16).pc ∧
    (ready 0xb040#16 0#16 0x0011#16 0#16 0#16).reg 10 = (ready 0xb040#16 0#16 0x0011#16 0#16 0#16).pc + 1#16 ∧
    opcodeOf (((ready 0xb040#16 0#16 0x0011#16 0#16 0#16).store 0x0011#16 0#16).load 0x0010#16) = 0 ∧
    (pushPointer 10 (ready 0#16 0#16 0x0011#16 0#16 0#16)).reg 10 = (ready 0#16 0#16 0x0011#16 0#16 0#16).pc ∧
    (pushPointer 10 (ready 0xb040#16 0#16 0x0012#16 0#16 0#16)).reg 10 =
      (ready 0xb040#16 0#16 0x0012#16 0#16 0#16).pc + 1#16 := by
  decide

/-- The mode of MtcWritesControlRegisterInSupervisorMode and HwiEmitsItsEventInSupervisorMode. -/
theorem witness_supervisor : State.reset.supervisor = true := by decide

/-- The clause of a reserved register and the clause of a defined one (MtcWritesControlRegister…). -/
theorem witness_Mtc_clauses : exec (.mtc ⟨.set, .c2⟩ 0) State.reset = .next State.reset ∧
    exec (.impMtc ⟨.ior, .fl⟩ 0x8000#16) State.reset = .next { State.reset with fl := 0x8001#16 } := ⟨rfl, rfl⟩

/-- The reset state in user mode. -/
def userState : State := { State.reset with fl := 0x0000#16 }

/-- The mode of UserModeIgnoresMtcAndHwi. -/
theorem witness_user_mode : userState.supervisor = false := by decide

theorem witness_OtherInstructions : (Instr.mfc 10 ⟨.set, .ex⟩).gated = false ∧ Creg.ex ≠ .fl ∧
    exec (.mfc 10 ⟨.set, .ex⟩) State.reset = .next (State.reset.setReg 10 0#16) := ⟨by decide, by decide, rfl⟩

theorem witness_HardwareInterrupt : (readyInt 0x5a90#16 0x0001#16 [some 0x0042#16]).requests = [some 0x0042#16] ∧
    (readyInt 0x5a90#16 0x0001#16 [some 0x0042#16]).fl.getLsbD 15 = false := by decide

theorem witness_MaskedRequest : (readyInt 0x5a90#16 0x8001#16 [some 0x0042#16]).requests = [some 0x0042#16] ∧
    (readyInt 0x5a90#16 0x8001#16 [some 0x0042#16]).fl.getLsbD 15 = true := by decide

theorem witness_StepRuns : acceptedRequest (ready 0xb040#16 0x0009#16 0#16 0#16 0#16) = none ∧
    decode ((ready 0xb040#16 0x0009#16 0#16 0#16 0#16).load 0x0010#16)
      ((ready 0xb040#16 0x0009#16 0#16 0#16 0#16).load 0x0011#16) = .ok (.impMov 22 0x0009#16) ∧
    (ready 0xb040#16 0x0009#16 0#16 0#16 0#16).hwiReactions = [] := by decide

theorem witness_StepStops : acceptedRequest (ready 0x000a#16 0#16 0#16 0#16 0#16) = none ∧
    step (ready 0x000a#16 0#16 0#16 0#16 0#16) = .fault (.unassignedOpcode 0x000a#16) := ⟨by decide, rfl⟩

/-- The clause of a scripted stop, which here is the second act of the reaction to `hwi 9`. -/
theorem witness_StepStops_scripted : decode 0x027c#16 0#16 = .ok (.hwi 9) ∧
    step { readyInt 0x027c#16 0x0001#16 [] with hwiReactions := [[.writeReg 10 0x0077#16, .stop]] } =
      .fault .platformStop := ⟨by decide, rfl⟩

/-- The reset state satisfies the invariant, and its step (brk, as empty memory decodes) has a next state. -/
theorem witness_StepKeepsInvariant : State.reset.mem.wf = true ∧ State.reset.hwiEvents = [] ∧
    ∃ t, step State.reset = .next t :=
  ⟨by decide, by decide,
    raiseInterrupt .brk 0xffff#16 (countInstr (advancePc (advancePc State.reset))), rfl⟩

theorem witness_OnlyListedEx : (Instr.mtc ⟨.set, .ia⟩ 0).computesEx = false ∧ (Creg.ia ≠ .ex) ∧
    exec (.mtc ⟨.set, .ia⟩ 0) State.reset = .next State.reset := ⟨by decide, by decide, rfl⟩

theorem witness_OnlyListedFl : (Instr.mov 1 0).mayWriteFl = false ∧
    exec (.mov 1 0) State.reset = .next State.reset ∧
    exec (.swi 0) State.reset = .next { State.reset with fl := 0x8001#16 } := ⟨by decide, rfl, rfl⟩

theorem witness_UserModeLeaves : (Instr.ire 0).entersInterrupt = false ∧
    exec (.ire 0) userState = .next userState ∧ (Instr.swi 0).entersInterrupt = true ∧
    exec (.swi 0) userState = .next { userState with fl := 0x8001#16 } := ⟨by decide, rfl, by decide, rfl⟩

/-- The signed comparison's hypotheses at both ends of the range: -32768 against 0, and 32767 against 0. -/
theorem witness_CmpThenJump_low : -32768 ≤ (0x8000#16).toInt - (0x0000#16).toInt ∧
    (0x8000#16).toInt - (0x0000#16).toInt ≤ 32767 := by decide

theorem witness_CmpThenJump_high : -32768 ≤ (0x7fff#16).toInt - (0x0000#16).toInt ∧
    (0x7fff#16).toInt - (0x0000#16).toInt ≤ 32767 := by decide

/-- The three clauses of EX after `sbx` at their boundaries: -1, 0, 0xffff and 0x10000. -/
theorem witness_Sbx_clauses : hiHalf (sbx32 .zero 0#16 0#16 1#16) = 0xffff#16 ∧
    hiHalf (sbx32 .zero 0#16 1#16 1#16) = 0x0000#16 ∧ hiHalf (sbx32 .zero 0#16 0xffff#16 0#16) = 0x0000#16 ∧
    hiHalf (sbx32 .zero 1#16 0xffff#16 0#16) = 0x0001#16 := by decide

/-- The two clauses of EX after `add` and `sub` at their boundaries. -/
theorem witness_Add_Sub_clauses : hiHalf (add32 0xffff#16 0#16) = 0x0000#16 ∧
    hiHalf (add32 0xffff#16 1#16) = 0x0001#16 ∧ hiHalf (sub32 5#16 5#16) = 0x0000#16 ∧
    hiHalf (sub32 5#16 6#16) = 0xffff#16 := by decide

/-- The two clauses of `ExAddendReadingsDifferOnlyInEx` where they meet. -/
theorem witness_ExAddend_clauses :
    hiHalf (adx32 .zero 0x7fff#16 0#16 0#16) = hiHalf (adx32 .sign 0x7fff#16 0#16 0#16) ∧
    hiHalf (adx32 .zero 0x8000#16 0#16 0#16) = hiHalf (adx32 .sign 0x8000#16 0#16 0#16) + 1#16 := by decide

/-- Another configuration meets the premises, and each instruction at the edge of what `cautious` lets through. -/
theorem witness_CautiousRuns : otherParams.octetOrder = params.octetOrder ∧
    otherParams.divZeroEx = params.divZeroEx ∧ otherParams.platformMap = [] ∧ otherParams.unassignedOp = .fault ∧
    cautious (.adx 10 11) (ready 0#16 0#16 0#16 0#16 0x7fff#16) = true ∧
    cautious (.dvi 10 11) (ready 0#16 0#16 0xfff8#16 0x0002#16 0#16) = true ∧
    cautious (.impShl 10 15#16) State.reset = true ∧ cautious (.swi 0x1ff) State.reset = true ∧
    cautious (.impMtc ⟨.set, .fl⟩ 0xc001#16) State.reset = true :=
  ⟨rfl, rfl, rfl, rfl, by decide, by decide, by decide, by decide, by decide⟩

/-- The premises of the clause about a step, met by a `swi 0x1ff` at PC. -/
theorem witness_CautiousRuns_step (i : Instr) (h : decode ((ready 0x7ffb#16 0#16 0#16 0#16 0#16).load 0x0010#16)
    ((ready 0x7ffb#16 0#16 0#16 0#16 0#16).load 0x0011#16) = .ok i) :
    cautious i (fetch (consumeRequest (ready 0x7ffb#16 0#16 0#16 0#16 0#16))).state = true := by
  have e : decode ((ready 0x7ffb#16 0#16 0#16 0#16 0#16).load 0x0010#16)
      ((ready 0x7ffb#16 0#16 0#16 0#16 0#16).load 0x0011#16) = .ok (.swi 0x1ff) := by decide
  cases e.symm.trans h
  decide

end Sys2Proof.Tests
end

section
/-! PROOFS, family 20_memory.md. What a word read sees after a `MemWrite` (R65), for either octet order and
every configuration, and the frame of a store. -/

namespace Sys2Proof.Machine

/-! Octet addresses of words (R62): distinct words share no octet. -/

theorem octetAddr_eq_iff (a b : Word) : octetAddr b = octetAddr a ↔ b = a := by
  rw [BitVec.toNat_eq]
  unfold octetAddr
  omega

/-- A word's lower octet address is even and its upper one odd. -/
theorem octetAddr_ne_succ (a b : Word) : octetAddr b ≠ octetAddr a + 1 := by
  unfold octetAddr
  omega

/-! Words after `MemWrite`. -/

theorem word_putWord_same (m : Memory) (a v : Word) (o : OctetOrder) : (m.putWord a v o).word a o = v := by
  have lower : (m.putWord a v o).octet (octetAddr a) = (wordOctets o v).1 := by
    rw [octet_putWord, if_neg (octetAddr_ne_succ a a), if_pos rfl]
  have upper : (m.putWord a v o).octet (octetAddr a + 1) = (wordOctets o v).2 := by
    rw [octet_putWord, if_pos rfl]
  rw [Memory.word, lower, upper, octetsWord_wordOctets]

/-- Neither octet of another word lies in the span of the word written, so the orders of the write and
the read need not agree. -/
theorem word_putWord_other (m : Memory) (a v b : Word) (o o' : OctetOrder) (h : b ≠ a) :
    (m.putWord a v o).word b o' = m.word b o' := by
  have hAddr : octetAddr b ≠ octetAddr a := mt (octetAddr_eq_iff a b).mp h
  have lower : (m.putWord a v o).octet (octetAddr b) = m.octet (octetAddr b) :=
    octet_putWord_outside m a v o _ hAddr (octetAddr_ne_succ a b)
  have upper : (m.putWord a v o).octet (octetAddr b + 1) = m.octet (octetAddr b + 1) :=
    octet_putWord_outside m a v o _ (octetAddr_ne_succ b a).symm (by omega)
  rw [Memory.word, lower, upper, Memory.word]

/-- What a word read sees after a store (R64, R65). -/
theorem load_store (s : State) (a v b : Word) (p : Config) :
    (s.store a v p).load b p = if b = a then v else s.load b p := by
  split
  · next h => subst h; exact word_putWord_same s.mem b v p.octetOrder
  · next h => exact word_putWord_other s.mem a v b p.octetOrder p.octetOrder h

/-- A store reaches the two octets of its word and nothing else (R65). -/
theorem store_frame (s : State) (a v : Word) (p : Config) :
    Frame [] [] (wordSpan a) 0 s (s.store a v p) where
  regs r _ := store_reg s a v p r
  ctrl c _ := store_held s a v p c
  memory b hb := by
    obtain ⟨hLower, hUpper⟩ : b ≠ octetAddr a ∧ b ≠ octetAddr a + 1 := by simpa [wordSpan] using hb
    exact octet_putWord_outside s.mem a v p.octetOrder b hLower hUpper
  requests := store_requests s a v p
  reactions := store_hwiReactions s a v p
  events := store_hwiEvents s a v p
  count := store_instrCount s a v p
  draws := store_draws s a v p

/-- Settles O7: the read-back law of words and the frame of a store. -/
theorem storeThenLoad : Obligations.StoreThenLoad := by
  intro s a v b
  exact ⟨load_store s a v b params, store_frame s a v params⟩

end Sys2Proof.Machine
end

section
/-! PROOFS, family 30_encoding.md. The decoder is read backwards: the fields of a decoded word are the
encoder's fields again, format by format (R92 to R94), so a list that decodes is the encoding and the rest. -/

namespace Sys2Proof

/-! Operand fields: what the encoder writes for an operand the decoder read (R92 to R100). -/

theorem regOf_val {f : Nat} (h : f < 32) : (regOf f).val = f := Nat.mod_eq_of_lt h

theorem selField_selOf {f : Nat} (h : f < 32) : selField (selOf f) = f := by
  revert f
  decide

theorem field5_signed5 {f : Nat} (h : f < 32) : field5 (signed5 f) = f := by
  unfold field5 signed5
  split <;> omega

theorem field10_signed10 {f : Nat} (h : f < 1024) : field10 (signed10 f) = f := by
  unfold field10 signed10
  split <;> omega

/-! The fields of a word: their ranges, and the word they make up (R91 to R94). -/

theorem midField_lt (w : Word) : midField w < 32 := Nat.mod_lt _ (by decide)

theorem highField_lt (w : Word) : highField w < 32 := Nat.div_lt_of_lt_mul w.isLt

theorem unaField_lt (w : Word) : unaField w < 1024 := Nat.div_lt_of_lt_mul w.isLt

theorem ordWord_fields (w : Word) : ordWord (opcodeOf w) (midField w) (highField w) = w := by
  unfold ordWord opcodeOf midField highField
  bv_omega

theorem unaWord_fields (w : Word) : unaWord (opcodeOf w) (unaField w) = w := by
  unfold unaWord opcodeOf unaField
  bv_omega

/-- The IMP word has no opcode field of its own: it stands for a first word whose bits 5 to 0 are zero. -/
theorem impWord_fields {w : Word} (h : opcodeOf w = 0) : impWord (midField w) (highField w) = w := by
  unfold opcodeOf at h
  unfold impWord midField highField
  bv_omega

/-! Each format's decoder inverted, by the rows of its table (R101 to R103). -/

theorem encode_of_decodeOrd {id a b : Nat} {i : Instr} (ha : a < 32) (hb : b < 32)
    (h : decodeOrd id a b = .ok i) : encode i = [ordWord id a b] := by
  unfold decodeOrd at h
  split at h <;> cases h <;>
    simp only [encode, regOf_val ha, regOf_val hb, selField_selOf ha, selField_selOf hb, field5_signed5 hb]

theorem encode_of_decodeUna {id c : Nat} {i : Instr} (hc : c < 1024)
    (h : decodeUna id c = .ok i) : encode i = [unaWord id c] := by
  unfold decodeUna at h
  split at h <;> cases h <;> simp only [encode, field10_signed10 hc]

theorem encode_of_decodeImp {id a : Nat} {n : Word} {i : Instr} (ha : a < 32)
    (h : decodeImp id a n = .ok i) : encode i = [impWord id a, n] := by
  unfold decodeImp at h
  split at h <;> cases h <;> simp only [encode, regOf_val ha, selField_selOf ha]

/-! The whole decoder: an IMP word takes the word after it, any other word stands alone (R90). -/

theorem encode_of_decode_two_words {w n : Word} {i : Instr} (hw : opcodeOf w = 0)
    (h : decode w n = .ok i) : encode i = [w, n] := by
  rw [decode, if_pos hw] at h
  rw [encode_of_decodeImp (highField_lt w) h, impWord_fields hw]

theorem encode_of_decode_one_word {w n : Word} {i : Instr} (hw : opcodeOf w ≠ 0)
    (h : decode w n = .ok i) : encode i = [w] := by
  rw [decode, if_neg hw] at h
  split at h
  · rw [encode_of_decodeUna (unaField_lt w) h, unaWord_fields]
  · rw [encode_of_decodeOrd (midField_lt w) (highField_lt w) h, ordWord_fields]

theorem ok_of_map_pair_eq_ok {x : Except DecodeReject Instr} {rest left : List Word} {i : Instr}
    (h : x.map (fun j => (j, rest)) = .ok (i, left)) : x = .ok i ∧ rest = left := by
  cases x <;> cases h
  exact ⟨rfl, rfl⟩

/-- What a successful decoding of a list can be (R90, R95). -/
theorem decodeWords_cons_cases {w : Word} {ws left : List Word} {i : Instr}
    (h : decodeWords (w :: ws) = .ok (i, left)) :
    (opcodeOf w = 0 ∧ ∃ n, ws = n :: left ∧ decode w n = .ok i) ∨
      (opcodeOf w ≠ 0 ∧ ws = left ∧ decode w 0#16 = .ok i) := by
  by_cases hw : opcodeOf w = 0
  · cases ws with
    | nil => simp [decodeWords, hw] at h
    | cons n rest =>
      simp only [decodeWords, hw, if_true] at h
      obtain ⟨hi, rfl⟩ := ok_of_map_pair_eq_ok h
      exact .inl ⟨hw, n, rfl, hi⟩
  · simp only [decodeWords, hw, if_false] at h
    obtain ⟨hi, rfl⟩ := ok_of_map_pair_eq_ok h
    exact .inr ⟨hw, rfl, hi⟩

/-- Settles O6, by the two lengths a decoded instruction can have. -/
theorem lengthIsKnownFromFirstWord : Obligations.LengthIsKnownFromFirstWord := by
  intro w ws i left h
  obtain ⟨hw, n, rfl, hi⟩ | ⟨hw, rfl, hi⟩ := decodeWords_cons_cases h
  · rw [encode_of_decode_two_words hw hi]
    exact ⟨rfl, (if_pos hw).symm⟩
  · rw [encode_of_decode_one_word hw hi]
    exact ⟨rfl, (if_neg hw).symm⟩

end Sys2Proof
end

section
/-! PROOFS, family 40_move.md. The encoder's words as the rules spell them, shift by shift (R92, R94),
and what a register write leaves unchanged: the two halves of every statement about a register result. -/

namespace Sys2Proof

/-! The fields of a word do not overlap, so the encoder's sums are the rules' disjunctions. -/

theorem ordWord_eq_shifts {id a b : Nat} (hid : id < 64) (ha : a < 32) :
    ordWord id a b = BitVec.ofNat 16 ((b <<< 11) ||| (a <<< 6) ||| id) := by
  have hHigh : b <<< 11 ||| a <<< 6 = b <<< 11 + a <<< 6 :=
    (Nat.shiftLeft_add_eq_or_of_lt (by omega) b).symm
  have hShift : b <<< 11 + a <<< 6 = (b * 32 + a) <<< 6 := by omega
  rw [hHigh, hShift, ← Nat.shiftLeft_add_eq_or_of_lt hid, ordWord]
  congr 1
  omega

theorem impWord_eq_shifts {id a : Nat} (hid : id < 32) :
    impWord id a = BitVec.ofNat 16 ((a <<< 11) ||| (id <<< 6)) := by
  rw [← Nat.shiftLeft_add_eq_or_of_lt (by omega), impWord]
  congr 1
  omega

end Sys2Proof

namespace Sys2Proof.Machine

theorem encodedOrd_of_encode {i : Instr} {id a b : Nat} (hid : id < 64) (ha : a < 32)
    (h : encode i = [ordWord id a b]) : EncodedOrd i id a b := by
  rw [EncodedOrd, h, ordWord_eq_shifts hid ha]

theorem encodedImp_of_encode {i : Instr} {id a : Nat} {n : Word} (hid : id < 32)
    (h : encode i = [impWord id a, n]) : EncodedImp i id a n := by
  rw [EncodedImp, h, impWord_eq_shifts hid]

/-! A register write, and the two instructions that are nothing else. -/

/-- A register write reaches its destination and nothing else (R21). -/
theorem setReg_frame (s : State) (a : Reg) (v : Word) : Frame [a] [] [] 0 s (s.setReg a v) where
  regs r hr := reg_setReg_other s a r v (List.ne_of_not_mem_cons hr)
  ctrl c _ := setReg_held s a v c
  memory b _ := congrArg (Memory.octet · b) (setReg_mem s a v)
  requests := setReg_requests s a v
  reactions := setReg_hwiReactions s a v
  events := setReg_hwiEvents s a v
  count := setReg_instrCount s a v
  draws := setReg_draws s a v

theorem exec_mov (a b : Reg) (s : State) : exec (.mov a b) s = .next (s.setReg a (s.reg b)) := rfl

theorem exec_impMov (a : Reg) (n : Word) (s : State) : exec (.impMov a n) s = .next (s.setReg a n) := rfl

/-- Settles O18: both forms are one register write, of x[b] and of n. -/
theorem movCopiesOrLoadsImmediate : Obligations.MovCopiesOrLoadsImmediate := by
  intro a s
  constructor
  case left =>
    intro b
    have encoding : EncodedOrd (.mov a b) 0x01 a.val b.val := encodedOrd_of_encode (by decide) a.isLt rfl
    exact ⟨encoding, _, exec_mov a b s, reg_setReg_dest s a (s.reg b), setReg_frame s a (s.reg b)⟩
  case right =>
    intro n
    have encoding : EncodedImp (.impMov a n) 0x01 a.val n := encodedImp_of_encode (by decide) rfl
    exact ⟨encoding, _, exec_impMov a n s, reg_setReg_dest s a n, setReg_frame s a n⟩

end Sys2Proof.Machine
end

section
/-! PROOFS, family 41_memory_stack.md. A store to memory and a load into a register, each one operation on
the state: what it does and its frame come from the laws of that operation. -/

namespace Sys2Proof.Machine

theorem exec_str (a b : Reg) (s : State) : exec (.str a b) s = .next (s.store (s.reg a) (s.reg b)) := rfl

theorem exec_impStr (a : Reg) (n : Word) (s : State) :
    exec (.impStr a n) s = .next (s.store (s.reg a) n) := rfl

theorem exec_loa (a b : Reg) (s : State) :
    exec (.loa a b) s = .next (s.setReg a (s.load (s.reg b))) := rfl

theorem load_store_same (s : State) (a v : Word) : (s.store a v).load a = v := by
  rw [load_store, if_pos rfl]

/-- Settles O9: both forms are one store at x[a], of x[b] and of n. -/
theorem strStoresWord : Obligations.StrStoresWord := by
  intro a s
  constructor
  case left =>
    intro b
    have encoding : EncodedOrd (.str a b) 0x04 a.val b.val := encodedOrd_of_encode (by decide) a.isLt rfl
    exact ⟨encoding, _, exec_str a b s, load_store_same s _ _, store_frame s _ _ params⟩
  case right =>
    intro n
    have encoding : EncodedImp (.impStr a n) 0x03 a.val n := encodedImp_of_encode (by decide) rfl
    exact ⟨encoding, _, exec_impStr a n s, load_store_same s _ n, store_frame s _ n params⟩

/-- Settles O11: `loa` is one register write, of the word at x[b]. -/
theorem loaLoadsWord : Obligations.LoaLoadsWord := by
  intro a b s
  have encoding : EncodedOrd (.loa a b) 0x06 a.val b.val := encodedOrd_of_encode (by decide) a.isLt rfl
  exact ⟨encoding, _, exec_loa a b s, reg_setReg_dest s a _, setReg_frame s a _⟩

end Sys2Proof.Machine
end

section
/-! PROOFS, family 42_arithmetic.md. Every instruction here is one write `{EX, x[a]} <- v` (R170), so a
statement is the frame of that write and the two halves of the exact result v, each an integer fact. -/

namespace Sys2Proof.Machine

/-! The two halves of an exact result narrowed to 32 bits: its residue and its floor quotient by 2^16. -/

theorem loHalf_ofInt (i : Int) : loHalf (BitVec.ofInt 32 i) = BitVec.ofInt 16 i := by
  apply BitVec.eq_of_toNat_eq
  rw [loHalf_toNat, BitVec.toNat_ofInt, BitVec.toNat_ofInt]
  omega

theorem hiHalf_ofInt (i : Int) : hiHalf (BitVec.ofInt 32 i) = BitVec.ofInt 16 (i / 65536) := by
  apply BitVec.eq_of_toNat_eq
  rw [hiHalf_toNat, BitVec.toNat_ofInt, BitVec.toNat_ofInt]
  omega

theorem loHalf_ofNat (n : Nat) : loHalf (BitVec.ofNat 32 n) = BitVec.ofNat 16 n := by
  rw [← BitVec.ofInt_natCast, loHalf_ofInt, BitVec.ofInt_natCast]

theorem hiHalf_ofNat (n : Nat) : hiHalf (BitVec.ofNat 32 n) = BitVec.ofNat 16 (n / 65536) := by
  rw [← BitVec.ofInt_natCast, hiHalf_ofInt]
  exact BitVec.ofInt_natCast 16 (n / 65536)

/-! The write of a result, and what the two forms of an instruction share (R170). -/

/-- The write of a 32-bit result reaches its destination and EX, and nothing else. -/
theorem writeExReg_frame (a : Reg) (v : DWord) (s : State) : Frame [a] [.ex] [] 0 s (writeExReg a v s) where
  regs r hr := reg_setReg_other (s.setEx (hiHalf v)) a r (loHalf v) (List.ne_of_not_mem_cons hr)
  ctrl c hc := by
    rw [writeExReg, setReg_held, setEx_held, if_neg (List.ne_of_not_mem_cons hc)]
  memory _ _ := rfl
  requests := rfl
  reactions := rfl
  events := rfl
  count := rfl
  draws := rfl

/-- Two forms that both step to `result` of the second operand's value meet every statement that
`result` meets for all values. -/
theorem bothForms_of_next {ord : Reg → Instr} {imp : Word → Instr} {ordId impId : Nat} {a : Reg} {s : State}
    {post : Word → State → Prop} (result : Word → State)
    (ordEncoding : ∀ b : Reg, EncodedOrd (ord b) ordId a.val b.val)
    (impEncoding : ∀ n, EncodedImp (imp n) impId a.val n)
    (execOrd : ∀ b, exec (ord b) s = .next (result (s.reg b)))
    (execImp : ∀ n, exec (imp n) s = .next (result n))
    (result_post : ∀ y, post y (result y)) : BothForms ord ordId imp impId a s post :=
  ⟨fun b => ⟨ordEncoding b, _, execOrd b, result_post _⟩, fun n => ⟨impEncoding n, _, execImp n, result_post n⟩⟩

/-! `add` (R171, R183): EX is the carry. -/

theorem exec_add (a b : Reg) (s : State) :
    exec (.add a b) s = .next (writeExReg a (add32 (s.reg a) (s.reg b)) s) := rfl

theorem exec_impAdd (a : Reg) (n : Word) (s : State) :
    exec (.impAdd a n) s = .next (writeExReg a (add32 (s.reg a) n) s) := rfl

theorem loHalf_add32 (x y : Word) : loHalf (add32 x y) = BitVec.ofNat 16 (x.toNat + y.toNat) :=
  loHalf_ofNat _

theorem hiHalf_add32 (x y : Word) :
    hiHalf (add32 x y) = if 0x10000 ≤ x.toNat + y.toNat then 0x0001#16 else 0x0000#16 := by
  have hx := x.isLt
  have hy := y.isLt
  rw [add32, hiHalf_ofNat]
  split
  · have carry : (x.toNat + y.toNat) / 65536 = 1 := by omega
    rw [carry]
  · have noCarry : (x.toNat + y.toNat) / 65536 = 0 := by omega
    rw [noCarry]

/-- Settles O23: both forms write the halves of A + B, the upper of which is the carry. -/
theorem addWritesSumAndCarry : Obligations.AddWritesSumAndCarry := by
  intro a s
  refine bothForms_of_next (fun y => writeExReg a (add32 (s.reg a) y) s)
    (fun _ => encodedOrd_of_encode (by decide) a.isLt rfl) (fun _ => encodedImp_of_encode (by decide) rfl)
    (exec_add a · s) (exec_impAdd a · s) fun y => ⟨?sum, ?carry, writeExReg_frame a _ s⟩
  case sum => rw [writeExReg_reg, loHalf_add32]
  case carry => rw [writeExReg_ex, hiHalf_add32]

/-! `sub` (R173, R185): EX is the borrow. -/

theorem exec_sub (a b : Reg) (s : State) :
    exec (.sub a b) s = .next (writeExReg a (sub32 (s.reg a) (s.reg b)) s) := rfl

theorem exec_impSub (a : Reg) (n : Word) (s : State) :
    exec (.impSub a n) s = .next (writeExReg a (sub32 (s.reg a) n) s) := rfl

theorem loHalf_sub32 (x y : Word) : loHalf (sub32 x y) = x - y := by
  apply BitVec.eq_of_toNat_eq
  rw [sub32, loHalf_ofInt, BitVec.toNat_ofInt, BitVec.toNat_sub]
  omega

theorem hiHalf_sub32 (x y : Word) :
    hiHalf (sub32 x y) = if x.toNat < y.toNat then 0xffff#16 else 0x0000#16 := by
  have hx := x.isLt
  have hy := y.isLt
  rw [sub32, hiHalf_ofInt]
  split
  · have borrow : ((x.toNat : Int) - y.toNat) / 65536 = -1 := by omega
    rw [borrow]
    decide
  · have noBorrow : ((x.toNat : Int) - y.toNat) / 65536 = 0 := by omega
    rw [noBorrow]
    decide

/-- Settles O25: both forms write the halves of A - B, the upper of which is the borrow. -/
theorem subWritesDifferenceAndBorrow : Obligations.SubWritesDifferenceAndBorrow := by
  intro a s
  refine bothForms_of_next (fun y => writeExReg a (sub32 (s.reg a) y) s)
    (fun _ => encodedOrd_of_encode (by decide) a.isLt rfl) (fun _ => encodedImp_of_encode (by decide) rfl)
    (exec_sub a · s) (exec_impSub a · s) fun y => ⟨?difference, ?borrow, writeExReg_frame a _ s⟩
  case difference => rw [writeExReg_reg, loHalf_sub32]
  case borrow => rw [writeExReg_ex, hiHalf_sub32]

/-! `mul` (R175, R187): the unsigned product fits 32 bits. -/

theorem exec_mul (a b : Reg) (s : State) :
    exec (.mul a b) s = .next (writeExReg a (mul32 (s.reg a) (s.reg b)) s) := rfl

theorem exec_impMul (a : Reg) (n : Word) (s : State) :
    exec (.impMul a n) s = .next (writeExReg a (mul32 (s.reg a) n) s) := rfl

/-- The truncation of the rule changes nothing (R175). -/
theorem mul32_toNat (x y : Word) : (mul32 x y).toNat = x.toNat * y.toNat := by
  have fits : x.toNat * y.toNat < 2 ^ 16 * 2 ^ 16 := Nat.mul_lt_mul'' x.isLt y.isLt
  rw [mul32, BitVec.toNat_ofNat]
  exact Nat.mod_eq_of_lt fits

theorem loHalf_mul32 (x y : Word) : loHalf (mul32 x y) = BitVec.ofNat 16 (x.toNat * y.toNat) :=
  loHalf_ofNat _

theorem hiHalf_mul32_toNat (x y : Word) : (hiHalf (mul32 x y)).toNat = x.toNat * y.toNat / 0x10000 := by
  rw [hiHalf_toNat, mul32_toNat]

/-- Settles O28: both forms write the halves of A * B, which fits. -/
theorem mulWritesUnsignedProduct : Obligations.MulWritesUnsignedProduct := by
  intro a s
  refine bothForms_of_next (fun y => writeExReg a (mul32 (s.reg a) y) s)
    (fun _ => encodedOrd_of_encode (by decide) a.isLt rfl) (fun _ => encodedImp_of_encode (by decide) rfl)
    (exec_mul a · s) (exec_impMul a · s) fun y => ⟨?low, ?high, writeExReg_frame a _ s⟩
  case low => rw [writeExReg_reg, loHalf_mul32]
  case high => rw [writeExReg_ex, hiHalf_mul32_toNat]

/-! `mli` (R176, R188): the signed product fits 32 bits, and its lower half is that of `mul`. -/

theorem exec_mli (a b : Reg) (s : State) :
    exec (.mli a b) s = .next (writeExReg a (mli32 (s.reg a) (s.reg b)) s) := rfl

theorem exec_impMli (a : Reg) (n : Word) (s : State) :
    exec (.impMli a n) s = .next (writeExReg a (mli32 (s.reg a) n) s) := rfl

theorem loHalf_mli32 (x y : Word) : loHalf (mli32 x y) = BitVec.ofInt 16 (x.toInt * y.toInt) :=
  loHalf_ofInt _

/-- Modulo 2^16 the signed and the unsigned product are both the product of the words. -/
theorem ofInt_toInt_mul_eq_ofNat_toNat_mul (x y : Word) :
    BitVec.ofInt 16 (x.toInt * y.toInt) = BitVec.ofNat 16 (x.toNat * y.toNat) :=
  calc BitVec.ofInt 16 (x.toInt * y.toInt)
    _ = x * y := by rw [BitVec.ofInt_mul, BitVec.ofInt_toInt, BitVec.ofInt_toInt]
    _ = BitVec.ofNat 16 (x.toNat * y.toNat) := by
      rw [BitVec.ofNat_mul, BitVec.ofNat_toNat, BitVec.ofNat_toNat, BitVec.setWidth_eq, BitVec.setWidth_eq]

/-- The signed product is below 2^31 in magnitude, so the upper half read as signed is the floor
quotient itself. -/
theorem hiHalf_mli32_toInt (x y : Word) : (hiHalf (mli32 x y)).toInt = x.toInt * y.toInt / 65536 := by
  have lower : -2 ^ 30 ≤ x.toInt * y.toInt := BitVec.le_toInt_mul_toInt
  have upper : x.toInt * y.toInt ≤ 2 ^ 30 := BitVec.toInt_mul_toInt_le
  rw [mli32, hiHalf_ofInt]
  apply BitVec.toInt_ofInt_eq_self (by decide) <;> omega

theorem mli32_halves_exact (x y : Word) :
    (hiHalf (mli32 x y)).toInt * 0x10000 + (BitVec.ofInt 16 (x.toInt * y.toInt)).toNat = x.toInt * y.toInt := by
  rw [hiHalf_mli32_toInt, BitVec.toNat_ofInt]
  omega

/-- Settles O29: both forms write the halves of sA * sB, which fits, and whose lower half is that of A * B. -/
theorem mliWritesSignedProduct : Obligations.MliWritesSignedProduct := by
  intro a s
  refine bothForms_of_next (fun y => writeExReg a (mli32 (s.reg a) y) s)
    (fun _ => encodedOrd_of_encode (by decide) a.isLt rfl) (fun _ => encodedImp_of_encode (by decide) rfl)
    (exec_mli a · s) (exec_impMli a · s) fun y => ⟨?low, ?sameAsMul, ?product, writeExReg_frame a _ s⟩
  case low => rw [writeExReg_reg, loHalf_mli32]
  case sameAsMul => exact ofInt_toInt_mul_eq_ofNat_toNat_mul (s.reg a) y
  case product => rw [writeExReg_ex, mli32_halves_exact]

end Sys2Proof.Machine
end

section
/-! PROOFS, family 44_test_compare.md. Every instruction here is one write of EX (R240), so a statement is
the frame of that write and what the 16-bit operation says bit by bit or as a number. -/

namespace Sys2Proof.Machine

/-- A write of EX reaches EX and nothing else. -/
theorem setEx_frame (s : State) (v : Word) : Frame [] [.ex] [] 0 s (s.setEx v) where
  regs r _ := setEx_reg s v r
  ctrl c hc := by rw [setEx_held, if_neg (List.ne_of_not_mem_cons hc)]
  memory b _ := congrArg (Memory.octet · b) (setEx_mem s v)
  requests := setEx_requests s v
  reactions := setEx_hwiReactions s v
  events := setEx_hwiEvents s v
  count := setEx_instrCount s v
  draws := setEx_draws s v

/-! The two forms of each instruction write the same function of x[a] and the second operand. -/

theorem exec_tst (a b : Reg) (s : State) : exec (.tst a b) s = .next (s.setEx (s.reg a &&& s.reg b)) := rfl

theorem exec_impTst (a : Reg) (n : Word) (s : State) :
    exec (.impTst a n) s = .next (s.setEx (s.reg a &&& n)) := rfl

theorem exec_teq (a b : Reg) (s : State) : exec (.teq a b) s = .next (s.setEx (s.reg a ^^^ s.reg b)) := rfl

theorem exec_impTeq (a : Reg) (n : Word) (s : State) :
    exec (.impTeq a n) s = .next (s.setEx (s.reg a ^^^ n)) := rfl

theorem exec_cmp (a b : Reg) (s : State) : exec (.cmp a b) s = .next (s.setEx (s.reg a - s.reg b)) := rfl

theorem exec_impCmp (a : Reg) (n : Word) (s : State) :
    exec (.impCmp a n) s = .next (s.setEx (s.reg a - n)) := rfl

theorem exec_cmn (a b : Reg) (s : State) : exec (.cmn a b) s = .next (s.setEx (s.reg a + s.reg b)) := rfl

theorem exec_impCmn (a : Reg) (n : Word) (s : State) :
    exec (.impCmn a n) s = .next (s.setEx (s.reg a + n)) := rfl

/-- `cmp` puts into EX what `sub` puts into Ra: the lower half of the exact difference (R243). -/
theorem sub_eq_ofInt (x y : Word) : x - y = BitVec.ofInt 16 ((x.toNat : Int) - y.toNat) :=
  calc x - y
    _ = loHalf (sub32 x y) := (loHalf_sub32 x y).symm
    _ = BitVec.ofInt 16 ((x.toNat : Int) - y.toNat) := by rw [sub32, loHalf_ofInt]

/-- Two forms that both write `value` of the second operand to EX meet every statement that the write
meets for all values, and leave all else as it was. -/
theorem bothForms_of_setEx {ord : Reg → Instr} {imp : Word → Instr} {ordId impId : Nat} {a : Reg} {s : State}
    {post : Word → State → Prop} (value : Word → Word) (ordId_lt : ordId < 64) (impId_lt : impId < 32)
    (encodeOrd : ∀ b : Reg, encode (ord b) = [ordWord ordId a.val b.val])
    (encodeImp : ∀ n, encode (imp n) = [impWord impId a.val, n])
    (execOrd : ∀ b, exec (ord b) s = .next (s.setEx (value (s.reg b))))
    (execImp : ∀ n, exec (imp n) s = .next (s.setEx (value n)))
    (setEx_post : ∀ y, post y (s.setEx (value y))) :
    BothForms ord ordId imp impId a s fun y t => post y t ∧ Frame [] [.ex] [] 0 s t :=
  bothForms_of_next (fun y => s.setEx (value y)) (fun b => encodedOrd_of_encode ordId_lt a.isLt (encodeOrd b))
    (fun n => encodedImp_of_encode impId_lt (encodeImp n)) execOrd execImp
    fun y => ⟨setEx_post y, setEx_frame s (value y)⟩

/-- Settles O42: both forms of each instruction write EX alone, with the value the rule names. -/
theorem testsWriteOnlyEx : Obligations.TestsWriteOnlyEx := by
  intro a s
  refine ⟨?tst, ?teq, ?cmp, ?cmn⟩
  case tst =>
    refine bothForms_of_setEx (s.reg a &&& ·) (by decide) (by decide) (fun _ => rfl) (fun _ => rfl)
      (exec_tst a · s) (exec_impTst a · s) fun y j _ => ?bits
    case bits => rw [setEx_ex, BitVec.getLsbD_and]
  case teq =>
    refine bothForms_of_setEx (s.reg a ^^^ ·) (by decide) (by decide) (fun _ => rfl) (fun _ => rfl)
      (exec_teq a · s) (exec_impTeq a · s) fun y j _ => ?bits
    case bits => rw [setEx_ex, BitVec.getLsbD_xor]
  case cmp =>
    refine bothForms_of_setEx (s.reg a - ·) (by decide) (by decide) (fun _ => rfl) (fun _ => rfl)
      (exec_cmp a · s) (exec_impCmp a · s) fun y => ?difference
    case difference => rw [setEx_ex, sub_eq_ofInt]
  case cmn =>
    refine bothForms_of_setEx (s.reg a + ·) (by decide) (by decide) (fun _ => rfl) (fun _ => rfl)
      (exec_cmn a · s) (exec_impCmn a · s) fun y => ?sum
    case sum => rw [setEx_ex, BitVec.add_def]

end Sys2Proof.Machine
end

section
/-! PROOFS, family 30_encoding.md, the two round trips and the opcode table. A word made by the encoder of a
format gives its fields back, and the decoder's rows name the same operands as the encoder's (R92 to R104). -/

namespace Sys2Proof

/-! Operand fields: what the decoder reads from a field the encoder wrote (R92 to R100). -/

theorem regOf_regVal (r : Reg) : regOf r.val = r := Fin.ext (regOf_val r.isLt)

theorem selOf_selField (k : CregSel) : selOf (selField k) = k := by
  obtain ⟨mode, idx⟩ := k
  cases mode <;> cases idx <;> rfl

theorem immOk_iff (imm : Int) : immOk imm = true ↔ -16 ≤ imm ∧ imm ≤ 15 := decide_eq_true_iff

theorem offOk_iff (off : Int) : offOk off = true ↔ -512 ≤ off ∧ off ≤ 511 := decide_eq_true_iff

theorem msgOk_iff (c : Nat) : msgOk c = true ↔ c ≤ 1023 := decide_eq_true_iff

theorem signed5_field5 {imm : Int} (h : immOk imm = true) : signed5 (field5 imm) = imm := by
  rw [immOk_iff] at h
  unfold signed5 field5
  split <;> omega

theorem signed10_field10 {off : Int} (h : offOk off = true) : signed10 (field10 off) = off := by
  rw [offOk_iff] at h
  unfold signed10 field10
  split <;> omega

theorem field5_lt (imm : Int) : field5 imm < 32 := by
  unfold field5
  omega

theorem field10_lt (off : Int) : field10 off < 1024 := by
  unfold field10
  omega

theorem msg_lt {c : Nat} (h : msgOk c = true) : c < 1024 := Nat.lt_succ_of_le ((msgOk_iff c).mp h)

/-! The decoder on the words of each format (R91 to R95). -/

theorem opcodeOf_ordWord {id a b : Nat} (hid : id < 64) : opcodeOf (ordWord id a b) = id := by
  simp only [opcodeOf, ordWord, BitVec.toNat_ofNat]
  omega

theorem opcodeOf_unaWord {id c : Nat} (hid : id < 64) : opcodeOf (unaWord id c) = id := by
  simp only [opcodeOf, unaWord, BitVec.toNat_ofNat]
  omega

theorem opcodeOf_impWord (id a : Nat) : opcodeOf (impWord id a) = 0 := by
  simp only [opcodeOf, impWord, BitVec.toNat_ofNat]
  omega

theorem decode_ordWord {id a b : Nat} (hpos : 0 < id) (hid : id < 48) (ha : a < 32) (hb : b < 32) (n : Word) :
    decode (ordWord id a b) n = decodeOrd id a b := by
  have mid : midField (ordWord id a b) = a := by
    simp only [midField, ordWord, BitVec.toNat_ofNat]
    omega
  have high : highField (ordWord id a b) = b := by
    simp only [highField, ordWord, BitVec.toNat_ofNat]
    omega
  rw [decode, opcodeOf_ordWord (by omega), mid, high, if_neg (by omega), if_neg (by omega)]

theorem decode_unaWord {id c : Nat} (hlow : 48 ≤ id) (hid : id < 64) (hc : c < 1024) (n : Word) :
    decode (unaWord id c) n = decodeUna id c := by
  have field : unaField (unaWord id c) = c := by
    simp only [unaField, unaWord, BitVec.toNat_ofNat]
    omega
  rw [decode, opcodeOf_unaWord hid, field, if_neg (by omega), if_pos (by omega)]

theorem decode_impWord {id a : Nat} (hid : id < 32) (ha : a < 32) (n : Word) :
    decode (impWord id a) n = decodeImp id a n := by
  have mid : midField (impWord id a) = id := by
    simp only [midField, impWord, BitVec.toNat_ofNat]
    omega
  have high : highField (impWord id a) = a := by
    simp only [highField, impWord, BitVec.toNat_ofNat]
    omega
  rw [decode, opcodeOf_impWord, mid, high, if_pos rfl]

/-! Decoding an encoding (O1). -/

/-- The encoding is one word with an opcode field, or an IMP word and its second word, and decodes back. -/
inductive RoundTrip (i : Instr) : Prop
  | oneWord (w : Word) (encoding : encode i = [w]) (opcode : opcodeOf w ≠ 0) (decoding : ∀ n, decode w n = .ok i)
  | twoWords (w n : Word) (encoding : encode i = [w, n]) (opcode : opcodeOf w = 0) (decoding : decode w n = .ok i)

theorem RoundTrip.ord {i : Instr} {id a b : Nat} (encoding : encode i = [ordWord id a b]) (hpos : 0 < id)
    (hid : id < 48) (ha : a < 32) (hb : b < 32) (row : decodeOrd id a b = .ok i) : RoundTrip i :=
  .oneWord _ encoding (by rw [opcodeOf_ordWord (by omega)]; omega)
    fun n => (decode_ordWord hpos hid ha hb n).trans row

theorem RoundTrip.una {i : Instr} {id c : Nat} (encoding : encode i = [unaWord id c]) (hlow : 48 ≤ id)
    (hid : id < 64) (hc : c < 1024) (row : decodeUna id c = .ok i) : RoundTrip i :=
  .oneWord _ encoding (by rw [opcodeOf_unaWord hid]; omega)
    fun n => (decode_unaWord hlow hid hc n).trans row

theorem RoundTrip.imp {i : Instr} {id a : Nat} {n : Word} (encoding : encode i = [impWord id a, n])
    (hid : id < 32) (ha : a < 32) (row : decodeImp id a n = .ok i) : RoundTrip i :=
  .twoWords _ n encoding (opcodeOf_impWord id a) ((decode_impWord hid ha n).trans row)

/-- Row by row of R101, R102 and R103, the decoder names the operands that the encoder wrote. -/
theorem roundTrip_of_wellFormed (i : Instr) (wf : i.wellFormed = true) : RoundTrip i := by
  cases i with
  | mov a b | str a b | psh a b | loa a b | pop a b | mom a b | srl a b | add a b | adx a b | sub a b | sbx a b
  | mul a b | mli a b | div a b | dvi a b | mod a b | mdi a b | gbs a b | and a b | ior a b | xor a b | bic a b
  | shl a b | asr a b | shr a b | rol a b | ror a b | tst a b | teq a b | cmp a b | cmn a b =>
    exact .ord rfl (by decide) (by decide) a.isLt b.isLt (by simp only [decodeOrd, regOf_regVal])
  | mtc k b =>
    exact .ord rfl (by decide) (by decide) (Laws.selField_lt k) b.isLt
      (by simp only [decodeOrd, selOf_selField, regOf_regVal])
  | mfc a k =>
    exact .ord rfl (by decide) (by decide) a.isLt (Laws.selField_lt k)
      (by simp only [decodeOrd, selOf_selField, regOf_regVal])
  | inc a imm =>
    exact .ord rfl (by decide) (by decide) a.isLt (field5_lt imm)
      (by simp only [decodeOrd, regOf_regVal, signed5_field5 wf])
  | jmp off | jlt off | jle off | jgt off | jge off | jeq off | jne off =>
    exact .una rfl (by decide) (by decide) (field10_lt off) (by simp only [decodeUna, signed10_field10 wf])
  | swi c | hwi c | ire c =>
    exact .una rfl (by decide) (by decide) (msg_lt wf) rfl
  | impMtc k n =>
    exact .imp rfl (by decide) (Laws.selField_lt k) (by simp only [decodeImp, selOf_selField])
  | impBrk a n | impMov a n | impStr a n | impPsh a n | impSrl a n | impAdd a n | impAdx a n | impSub a n
  | impSbx a n | impMul a n | impMli a n | impDiv a n | impDvi a n | impMod a n | impMdi a n | impInc a n
  | impAnd a n | impIor a n | impXor a n | impBic a n | impShl a n | impAsr a n | impShr a n | impRol a n
  | impRor a n | impTst a n | impTeq a n | impCmp a n | impCmn a n =>
    exact .imp rfl (by decide) a.isLt (by simp only [decodeImp, regOf_regVal])

theorem decodeWords_encode_append {i : Instr} (h : RoundTrip i) (rest : List Word) :
    decodeWords (encode i ++ rest) = .ok (i, rest) := by
  cases h with
  | oneWord w encoding opcode decoding =>
    simp only [encoding, List.cons_append, List.nil_append, decodeWords, opcode, if_false, decoding, Except.map]
  | twoWords w n encoding opcode decoding =>
    simp only [encoding, List.cons_append, List.nil_append, decodeWords, opcode, if_true, decoding, Except.map]

/-- Reading octets back as words undoes laying words out in octets, in either order (R62). -/
theorem wordsOfOctets_octetsOfWords (ws : List Word) (order : OctetOrder) :
    wordsOfOctets (octetsOfWords ws order) order = ws := by
  induction ws with
  | nil => rfl
  | cons w rest ih => rw [octetsOfWords, wordsOfOctets, Machine.octetsWord_wordOctets, ih]

/-- Settles O1: the encoding's words carry the instruction's fields back to the decoder, also through octets. -/
theorem decodeInvertsEncode : Obligations.DecodeInvertsEncode := by
  intro i wf
  have readsBack := decodeWords_encode_append (roundTrip_of_wellFormed i wf)
  refine ⟨readsBack, ?octets⟩
  case octets =>
    rw [decodeOctets, wordsOfOctets_octetsOfWords, ← List.append_nil (encode i)]
    exact readsBack []

/-! Encoding what was decoded (O2): an immediate read from a field lies in its range (R96 to R98). -/

theorem immOk_signed5 {f : Nat} (h : f < 32) : immOk (signed5 f) = true := by
  rw [immOk_iff]
  unfold signed5
  split <;> omega

theorem offOk_signed10 {f : Nat} (h : f < 1024) : offOk (signed10 f) = true := by
  rw [offOk_iff]
  unfold signed10
  split <;> omega

theorem wellFormed_of_decodeOrd {id a b : Nat} {i : Instr} (hb : b < 32) (h : decodeOrd id a b = .ok i) :
    i.wellFormed = true := by
  unfold decodeOrd at h
  split at h <;> cases h <;> simp only [Instr.wellFormed, immOk_signed5 hb]

theorem wellFormed_of_decodeUna {id c : Nat} {i : Instr} (hc : c < 1024) (h : decodeUna id c = .ok i) :
    i.wellFormed = true := by
  have message : msgOk c = true := (msgOk_iff c).mpr (Nat.le_of_lt_succ hc)
  unfold decodeUna at h
  split at h <;> cases h <;> simp only [Instr.wellFormed, offOk_signed10 hc, message]

theorem wellFormed_of_decodeImp {id a : Nat} {n : Word} {i : Instr} (h : decodeImp id a n = .ok i) :
    i.wellFormed = true := by
  unfold decodeImp at h
  split at h <;> cases h <;> rfl

theorem wellFormed_of_decode {w n : Word} {i : Instr} (h : decode w n = .ok i) : i.wellFormed = true := by
  unfold decode at h
  split at h
  · exact wellFormed_of_decodeImp h
  · split at h
    · exact wellFormed_of_decodeUna (unaField_lt w) h
    · exact wellFormed_of_decodeOrd (highField_lt w) h

theorem encode_of_decode {w n : Word} {i : Instr} (h : decode w n = .ok i) :
    encode i = if opcodeOf w = 0 then [w, n] else [w] := by
  split
  · next hw => exact encode_of_decode_two_words hw h
  · next hw => exact encode_of_decode_one_word hw h

/-- Settles O2: no field of a decoded word is lost, so the encoder rebuilds the word. -/
theorem encodeInvertsDecode : Obligations.EncodeInvertsDecode := by
  intro w n i h
  exact ⟨wellFormed_of_decode h, encode_of_decode h⟩

/-! The codes without a table row (R105): every row's ID is in the table, so only the decoder's last arm is left. -/

theorem decodeOrd_error_iff {id : Nat} (hpos : 0 < id) (hid : id < 48) (a b : Nat) :
    (∃ e, decodeOrd id a b = .error e) ↔
      id ∈ [0x0a, 0x0b, 0x0c, 0x0d, 0x0e, 0x0f, 0x1c, 0x1d, 0x1e, 0x1f, 0x2d, 0x2e, 0x2f] := by
  unfold decodeOrd
  split <;> simp
  case _ => grind

theorem decodeUna_error_iff {id : Nat} (hlow : 48 ≤ id) (hid : id < 64) (c : Nat) :
    (∃ e, decodeUna id c = .error e) ↔ id ∈ [0x37, 0x38, 0x39, 0x3a, 0x3e, 0x3f] := by
  unfold decodeUna
  split <;> simp
  case _ => grind

theorem decodeImp_error_iff {id : Nat} (hid : id < 32) (a : Nat) (n : Word) :
    (∃ e, decodeImp id a n = .error e) ↔ id ∈ [0x06, 0x07] := by
  unfold decodeImp
  split <;> simp
  case _ => grind

/-- Settles O5: the formats share out the opcodes, and each rejects the IDs its table lacks. -/
theorem unassignedCodesReject : Obligations.UnassignedCodesReject := by
  intro w n
  change _ ↔ opcodeOf w ∈ _ ∨ opcodeOf w ∈ _ ∨ (opcodeOf w = 0 ∧ midField w ∈ _)
  have opcode_lt : opcodeOf w < 64 := Nat.mod_lt _ (by decide)
  unfold decode
  split
  · next imp =>
    rw [decodeImp_error_iff (midField_lt w), imp]
    simp
  · next notImp =>
    split
    · next una =>
      rw [decodeUna_error_iff (by omega) opcode_lt]
      simp only [List.mem_cons, List.not_mem_nil, or_false]
      omega
    · next notUna =>
      rw [decodeOrd_error_iff (by omega) (by omega)]
      simp only [List.mem_cons, List.not_mem_nil, or_false]
      omega

/-! The opcode table (R104). -/

/-- Every instruction is encoded into the row that bears its name. -/
theorem encodesRow (i : Instr) : Laws.EncodesRow.Statement i := by
  cases i with
  | mov a b => exact Laws.EncodesRow.mov a b
  | mtc k b => exact Laws.EncodesRow.mtc k b
  | mfc a k => exact Laws.EncodesRow.mfc a k
  | str a b => exact Laws.EncodesRow.str a b
  | psh a b => exact Laws.EncodesRow.psh a b
  | loa a b => exact Laws.EncodesRow.loa a b
  | pop a b => exact Laws.EncodesRow.pop a b
  | mom a b => exact Laws.EncodesRow.mom a b
  | srl a b => exact Laws.EncodesRow.srl a b
  | add a b => exact Laws.EncodesRow.add a b
  | adx a b => exact Laws.EncodesRow.adx a b
  | sub a b => exact Laws.EncodesRow.sub a b
  | sbx a b => exact Laws.EncodesRow.sbx a b
  | mul a b => exact Laws.EncodesRow.mul a b
  | mli a b => exact Laws.EncodesRow.mli a b
  | div a b => exact Laws.EncodesRow.div a b
  | dvi a b => exact Laws.EncodesRow.dvi a b
  | mod a b => exact Laws.EncodesRow.mod a b
  | mdi a b => exact Laws.EncodesRow.mdi a b
  | inc a imm => exact Laws.EncodesRow.inc a imm
  | gbs a b => exact Laws.EncodesRow.gbs a b
  | and a b => exact Laws.EncodesRow.and a b
  | ior a b => exact Laws.EncodesRow.ior a b
  | xor a b => exact Laws.EncodesRow.xor a b
  | bic a b => exact Laws.EncodesRow.bic a b
  | shl a b => exact Laws.EncodesRow.shl a b
  | asr a b => exact Laws.EncodesRow.asr a b
  | shr a b => exact Laws.EncodesRow.shr a b
  | rol a b => exact Laws.EncodesRow.rol a b
  | ror a b => exact Laws.EncodesRow.ror a b
  | tst a b => exact Laws.EncodesRow.tst a b
  | teq a b => exact Laws.EncodesRow.teq a b
  | cmp a b => exact Laws.EncodesRow.cmp a b
  | cmn a b => exact Laws.EncodesRow.cmn a b
  | jmp off => exact Laws.EncodesRow.jmp off
  | jlt off => exact Laws.EncodesRow.jlt off
  | jle off => exact Laws.EncodesRow.jle off
  | jgt off => exact Laws.EncodesRow.jgt off
  | jge off => exact Laws.EncodesRow.jge off
  | jeq off => exact Laws.EncodesRow.jeq off
  | jne off => exact Laws.EncodesRow.jne off
  | swi c => exact Laws.EncodesRow.swi c
  | hwi c => exact Laws.EncodesRow.hwi c
  | ire c => exact Laws.EncodesRow.ire c
  | impBrk a n => exact Laws.EncodesRow.impBrk a n
  | impMov a n => exact Laws.EncodesRow.impMov a n
  | impMtc k n => exact Laws.EncodesRow.impMtc k n
  | impStr a n => exact Laws.EncodesRow.impStr a n
  | impPsh a n => exact Laws.EncodesRow.impPsh a n
  | impSrl a n => exact Laws.EncodesRow.impSrl a n
  | impAdd a n => exact Laws.EncodesRow.impAdd a n
  | impAdx a n => exact Laws.EncodesRow.impAdx a n
  | impSub a n => exact Laws.EncodesRow.impSub a n
  | impSbx a n => exact Laws.EncodesRow.impSbx a n
  | impMul a n => exact Laws.EncodesRow.impMul a n
  | impMli a n => exact Laws.EncodesRow.impMli a n
  | impDiv a n => exact Laws.EncodesRow.impDiv a n
  | impDvi a n => exact Laws.EncodesRow.impDvi a n
  | impMod a n => exact Laws.EncodesRow.impMod a n
  | impMdi a n => exact Laws.EncodesRow.impMdi a n
  | impInc a n => exact Laws.EncodesRow.impInc a n
  | impAnd a n => exact Laws.EncodesRow.impAnd a n
  | impIor a n => exact Laws.EncodesRow.impIor a n
  | impXor a n => exact Laws.EncodesRow.impXor a n
  | impBic a n => exact Laws.EncodesRow.impBic a n
  | impShl a n => exact Laws.EncodesRow.impShl a n
  | impAsr a n => exact Laws.EncodesRow.impAsr a n
  | impShr a n => exact Laws.EncodesRow.impShr a n
  | impRol a n => exact Laws.EncodesRow.impRol a n
  | impRor a n => exact Laws.EncodesRow.impRor a n
  | impTst a n => exact Laws.EncodesRow.impTst a n
  | impTeq a n => exact Laws.EncodesRow.impTeq a n
  | impCmp a n => exact Laws.EncodesRow.impCmp a n
  | impCmn a n => exact Laws.EncodesRow.impCmn a n

/-- A row of the table is one of an opcode, or one of an IMP subopcode; its code is assigned. -/
theorem opcodeTable_row : ∀ r ∈ opcodeTable,
    (r.mask = 63 ∧ r.bits % 64 = r.bits ∧ r.bits ≠ 0 ∧
      r.bits ∉ [0x0a, 0x0b, 0x0c, 0x0d, 0x0e, 0x0f, 0x1c, 0x1d, 0x1e, 0x1f, 0x2d, 0x2e, 0x2f] ∧
      r.bits ∉ [0x37, 0x38, 0x39, 0x3a, 0x3e, 0x3f]) ∨
    (r.mask = 2047 ∧ r.bits % 64 = 0 ∧ r.bits / 64 ∉ [0x06, 0x07]) := by
  decide

theorem opcodeTable_bits_nodup : (opcodeTable.map OpcodeRow.bits).Nodup := by
  decide

/-- The code in a first word: its opcode, or for IMP its low eleven bits. -/
def rowBits (w : Word) : Nat := if opcodeOf w = 0 then w.toNat % 2048 else opcodeOf w

/-- The word determines the bits of every row that covers it. -/
theorem bits_eq_of_covers {r : OpcodeRow} (hr : r ∈ opcodeTable) {w : Word} (h : r.covers w = true) :
    r.bits = rowBits w := by
  rw [OpcodeRow.covers, beq_iff_eq] at h
  unfold rowBits opcodeOf
  obtain ⟨mask, _, nonzero, _, _⟩ | ⟨mask, low, _⟩ := opcodeTable_row r hr
  · rw [mask, Laws.and_63] at h
    rw [h, if_neg nonzero]
  · rw [mask, Laws.and_2047] at h
    rw [if_pos (by omega), h]

/-- A first word that a row covers is not one of the unassigned codes. -/
theorem not_covers_of_decode_error {w n : Word} {e : DecodeReject} (h : decode w n = .error e) {r : OpcodeRow}
    (hr : r ∈ opcodeTable) : r.covers w = false := by
  rw [Bool.eq_false_iff]
  intro covered
  have bits := bits_eq_of_covers hr covered
  have code := (unassignedCodesReject w n).mp ⟨e, h⟩
  unfold rowBits opcodeOf at bits
  obtain ⟨_, opcode, nonzero, ord, una⟩ | ⟨_, low, sub⟩ := opcodeTable_row r hr
  · have hw : w.toNat % 64 = r.bits := by
      split at bits <;> omega
    rw [hw] at code
    obtain h | h | ⟨h, _⟩ := code
    · exact ord h
    · exact una h
    · exact nonzero h
  · have hw : w.toNat % 64 = 0 := by
      split at bits <;> omega
    have field : w.toNat / 64 % 32 = r.bits / 64 := by
      rw [if_pos hw] at bits
      omega
    rw [hw, field] at code
    simp only [List.mem_cons, List.not_mem_nil, or_false] at code sub
    omega

/-- Settles O4: the row of an instruction's name covers its encoding, which is the decoded word; no row covers
an unassigned code; and a row's bits are a function of the word. -/
theorem opcodeTableAgreesWithDecoder : Obligations.OpcodeTableAgreesWithDecoder := by
  intro w n
  refine ⟨?decoded, fun e h r hr => not_covers_of_decode_error h hr, ?unique⟩
  case decoded =>
    intro i h
    obtain ⟨r, hr, name, w', rest, encoding, covered, words⟩ := encodesRow i (wellFormed_of_decode h)
    have sameWords := encoding.symm.trans (encode_of_decode h)
    refine ⟨r, hr, ?covers, name, ?length⟩
    case covers =>
      have sameWord : w' = w := by split at sameWords <;> cases sameWords <;> rfl
      exact sameWord ▸ covered
    case length =>
      rw [words, wordsNeeded]
      split at sameWords <;> next opcode => cases sameWords; simp [opcode]
  case unique =>
    intro r hr q hq hrw hqw
    exact List.inj_on_of_nodup_map opcodeTable_bits_nodup hr hq
      ((bits_eq_of_covers hr hrw).trans (bits_eq_of_covers hq hqw).symm)

/-- Settles O3: the decoder evaluated on the thirteen words. -/
theorem sampleWordsDecode : Obligations.SampleWordsDecode := by
  unfold Obligations.SampleWordsDecode
  decide

end Sys2Proof
end

section
/-! PROOFS, family 10_state.md. Frames compose along the steps of an effect (R10): what a sequence of
operations may change is what its operations may change. With them the laws of r0 and of the reset state. -/

namespace Sys2Proof.Machine

/-! Frames. -/

theorem Frame.refl {ds : List Reg} {cs : List Creg} {octets : List Nat} (s : State) : Frame ds cs octets 0 s s where
  regs _ _ := rfl
  ctrl _ _ := rfl
  memory _ _ := rfl
  requests := rfl
  reactions := rfl
  events := rfl
  count := rfl
  draws := rfl

theorem Frame.trans {ds ds' : List Reg} {cs cs' : List Creg} {octets octets' : List Nat} {n n' : Nat}
    {s t u : State} (first : Frame ds cs octets n s t) (second : Frame ds' cs' octets' n' t u) :
    Frame (ds ++ ds') (cs ++ cs') (octets ++ octets') (n + n') s u where
  regs r hr := by
    rw [List.mem_append, not_or] at hr
    rw [second.regs r hr.2, first.regs r hr.1]
  ctrl c hc := by
    rw [List.mem_append, not_or] at hc
    rw [second.ctrl c hc.2, first.ctrl c hc.1]
  memory b hb := by
    rw [List.mem_append, not_or] at hb
    rw [second.memory b hb.2, first.memory b hb.1]
  requests := second.requests.trans first.requests
  reactions := second.reactions.trans first.reactions
  events := second.events.trans first.events
  count := second.count.trans first.count
  draws := by rw [second.draws, first.draws, Nat.add_assoc]

/-- A write of PC reaches PC and nothing else. -/
theorem setPc_frame (s : State) (v : Word) : Frame [] [.pc] [] 0 s (s.setPc v) where
  regs r _ := setPc_reg s v r
  ctrl c hc := by rw [setPc_held, if_neg (List.ne_of_not_mem_cons hc)]
  memory b _ := congrArg (Memory.octet · b) (setPc_mem s v)
  requests := setPc_requests s v
  reactions := setPc_hwiReactions s v
  events := setPc_hwiEvents s v
  count := setPc_instrCount s v
  draws := setPc_draws s v

/-- Drawing a free value counts the draw and does nothing else (log 6). -/
theorem drawn_frame (s : State) : Frame [] [] [] 1 s s.drawn where
  regs r _ := drawn_reg s r
  ctrl c _ := drawn_held s c
  memory b _ := congrArg (Memory.octet · b) (drawn_mem s)
  requests := drawn_requests s
  reactions := drawn_hwiReactions s
  events := drawn_hwiEvents s
  count := drawn_instrCount s
  draws := drawn_draws s

/-- A write of a control register reaches that register and nothing else. -/
theorem setCreg_frame (s : State) (c : Creg) (v : Word) (p : Config) : Frame [] [c] [] 0 s (s.setCreg c v p) where
  regs r _ := setCreg_reg s c v p r
  ctrl d hd := setCreg_held_other s c d v p (List.ne_of_not_mem_cons hd)
  memory b _ := congrArg (Memory.octet · b) (setCreg_mem s c v p)
  requests := setCreg_requests s c v p
  reactions := setCreg_hwiReactions s c v p
  events := setCreg_hwiEvents s c v p
  count := setCreg_instrCount s c v p
  draws := setCreg_draws s c v p

/-! General registers (R21, R22). -/

/-- A write to r0 is discarded. -/
theorem setReg_zero (s : State) (v : Word) : s.setReg 0 v = s := rfl

/-- Settles O17: what a register read sees after a register write. -/
theorem zeroRegisterReadsZeroAndDiscards : Obligations.ZeroRegisterReadsZeroAndDiscards := by
  intro s
  refine ⟨reg_zero s, setReg_zero s, fun r q v hr => ?_⟩
  split
  · next same =>
    have notZero : r.val ≠ 0 := fun h => hr (Fin.ext h)
    rw [same, reg_setReg_self s r v notZero]
  · next other => exact reg_setReg_other s r q v other

/-! The reset state (R44). -/

theorem reset_reg (r : Reg) : State.reset.reg r = 0#16 := by
  rw [State.reg]
  split
  · rfl
  · simp [State.reset]

/-- Memory lists nothing at reset, so every word is two unlisted octets. -/
theorem reset_load (a : Word) : State.reset.load a = 0#16 := by
  change octetsWord .msFirst unlistedOctet unlistedOctet = 0#16
  decide

/-- Settles O56: the reset parameters' defaults, read through the accessors. -/
theorem resetStateHasTheNamedValues : Obligations.ResetStateHasTheNamedValues := by
  refine ⟨rfl, rfl, by decide, by decide, by decide, reset_reg, ?control, reset_load⟩
  case control =>
    intro c hc
    cases c with
    | fl => exact absurd rfl hc
    | _ => rfl

/-- Settles O55: no event has been emitted at reset, and memory lists nothing. -/
theorem resetSatisfiesMachineInvariant : Obligations.ResetSatisfiesMachineInvariant where
  memory := wf_reset
  messages _ h := absurd h List.not_mem_nil
  order := List.Pairwise.nil
  bounded _ h := absurd h List.not_mem_nil

end Sys2Proof.Machine
end

section
/-! PROOFS, family 20_memory.md and 41_memory_stack.md, the octet order, stacks and memory move. Each effect
is a pointer step and an access, in the order of R151 to R156; a fetch is one more access. -/

namespace Sys2Proof.Machine

/-- Settles O8: the two octets of a word under the default octet order (R62). -/
theorem wordsLieMostSignificantOctetFirst : Obligations.WordsLieMostSignificantOctetFirst := by
  intro s a v
  refine ⟨?lower, ?upper, rfl⟩
  case lower =>
    have lower := octet_putWord s.mem a v .msFirst (octetAddr a)
    rw [if_neg (octetAddr_ne_succ a a), if_pos rfl] at lower
    exact lower
  case upper =>
    have upper := octet_putWord s.mem a v .msFirst (octetAddr a + 1)
    rw [if_pos rfl] at upper
    exact upper

/-! Pointers. -/

theorem reg_pushPointer_self (a : Reg) (s : State) :
    (pushPointer a s).reg a = if a = 0 then 0#16 else s.reg a - 1#16 := reg_setReg_dest s a _

theorem reg_pushPointer (a b : Reg) (s : State) :
    (pushPointer a s).reg b = if b = a then (pushPointer a s).reg a else s.reg b := by
  split
  · next same => rw [same]
  · next other => exact reg_setReg_other s a b _ other

theorem reg_stepPointer_self (r : Reg) (s : State) :
    (stepPointer r s).reg r = if r = 0 then 0#16 else s.reg r + 1#16 := reg_setReg_dest s r _

theorem reg_stepPointer_other {r q : Reg} (h : q ≠ r) (s : State) : (stepPointer r s).reg q = s.reg q :=
  reg_setReg_other s r q _ h

theorem stepPointer_frame (r : Reg) (s : State) : Frame [r] [] [] 0 s (stepPointer r s) := setReg_frame s r _

/-! `psh` and `imp psh` (R151, R156). -/

theorem exec_psh (a b : Reg) (s : State) :
    exec (.psh a b) s = .next ((pushPointer a s).store ((pushPointer a s).reg a) ((pushPointer a s).reg b)) := rfl

theorem exec_impPsh (a : Reg) (n : Word) (s : State) :
    exec (.impPsh a n) s = .next ((pushPointer a s).store ((pushPointer a s).reg a) n) := rfl

/-- A push steps its pointer and stores at the new one. -/
theorem push_frame (a : Reg) (v : Word) (s : State) :
    Frame [a] [] (wordSpan ((pushPointer a s).reg a)) 0 s
      ((pushPointer a s).store ((pushPointer a s).reg a) v) :=
  (setReg_frame s a _).trans (store_frame (pushPointer a s) _ v params)

/-- Settles O10: the pointer step, then the store that reads the registers as it left them. -/
theorem pshDecrementsThenStores : Obligations.PshDecrementsThenStores := by
  intro a s
  refine ⟨reg_pushPointer_self a s, ?psh, ?impPsh⟩
  case psh =>
    intro b
    have stored := (load_store_same (pushPointer a s) ((pushPointer a s).reg a) _).trans (reg_pushPointer a b s)
    exact ⟨encodedOrd_of_encode (by decide) a.isLt rfl, _, exec_psh a b s, store_reg .., stored, push_frame a _ s⟩
  case impPsh =>
    intro n
    exact ⟨encodedImp_of_encode (by decide) rfl, _, exec_impPsh a n s, store_reg ..,
      load_store_same (pushPointer a s) _ n, push_frame a n s⟩

/-! `pop` (R153). -/

theorem exec_pop (a b : Reg) (s : State) :
    exec (.pop a b) s = .next (stepPointer b (s.setReg a (s.load (s.reg b)))) := rfl

/-- Settles O12: the load, then the pointer step on what the load left. -/
theorem popLoadsThenIncrements : Obligations.PopLoadsThenIncrements := by
  intro a b s
  have frame := (setReg_frame s a (s.load (s.reg b))).trans (stepPointer_frame b _)
  refine ⟨encodedOrd_of_encode (by decide) a.isLt rfl, _, exec_pop a b s, ?values, frame⟩
  split
  · next same =>
    subst same
    rw [reg_stepPointer_self, reg_setReg_dest]
    split <;> rfl
  · next other =>
    rw [reg_stepPointer_other other, reg_setReg_dest, reg_stepPointer_self, reg_setReg_other _ _ _ _ (Ne.symm other)]
    exact ⟨rfl, rfl⟩

/-! `mom` (R154). -/

theorem exec_mom (a b : Reg) (s : State) :
    exec (.mom a b) s = .next (stepPointer b (stepPointer a (s.store (s.reg a) (s.load (s.reg b))))) := rfl

/-- Two steps of one pointer, or a step of each of two, over any state. -/
theorem reg_stepPointer_stepPointer (a b : Reg) (s : State) :
    if a = b then (stepPointer b (stepPointer a s)).reg a = (if a = 0 then 0#16 else s.reg a + 2#16)
    else (stepPointer b (stepPointer a s)).reg a = (if a = 0 then 0#16 else s.reg a + 1#16) ∧
      (stepPointer b (stepPointer a s)).reg b = (if b = 0 then 0#16 else s.reg b + 1#16) := by
  split
  · next same =>
    subst same
    rw [reg_stepPointer_self, reg_stepPointer_self]
    split
    · rfl
    · exact BitVec.add_assoc (s.reg a) 1#16 1#16
  · next other =>
    rw [reg_stepPointer_other other, reg_stepPointer_self, reg_stepPointer_self,
      reg_stepPointer_other (Ne.symm other)]
    exact ⟨rfl, rfl⟩

/-- Settles O13: the store, which the pointer steps do not disturb, then the two steps. -/
theorem momCopiesAndSteps : Obligations.MomCopiesAndSteps := by
  intro a b s
  have frame := ((store_frame s (s.reg a) (s.load (s.reg b)) params).trans (stepPointer_frame a _)).trans
    (stepPointer_frame b _)
  exact ⟨encodedOrd_of_encode (by decide) a.isLt rfl, _, exec_mom a b s, load_store_same s _ _,
    reg_stepPointer_stepPointer a b (s.store _ _), frame⟩

/-- Settles O14: the statements about `psh` and `pop`, one after the other. -/
theorem pushThenPopRestores : Obligations.PushThenPopRestores := by
  intro p x y s hp hx hy
  obtain ⟨pointer, psh, -⟩ := pshDecrementsThenStores p s
  obtain ⟨-, t, execPsh, pushed, stored, -⟩ := psh y
  obtain ⟨-, u, execPop, popped, -⟩ := popLoadsThenIncrements x p t
  rw [if_neg hx] at popped
  obtain ⟨loaded, stepped⟩ := popped
  refine ⟨t, execPsh, u, execPop, ?value, ?restored⟩
  case value => rw [loaded, pushed, stored, if_neg hy]
  case restored => rw [stepped, if_neg hp, pushed, pointer, if_neg hp, BitVec.sub_add_cancel]

/-! Instruction-fetch coherence (20_memory.md section 4). -/

theorem Completes.mono {out : Out} {P Q : State → Prop} (h : Completes out P) (hPQ : ∀ t, P t → Q t) :
    Completes out Q := by
  obtain ⟨t, next, ht⟩ := h
  exact ⟨t, next, hPQ t ht⟩

/-- A fetch reads the words of memory at PC and after it (R95), so it sees whatever a load sees. -/
theorem fetchSees_of_load {ds : List Reg} {octets : List Nat} {n : Nat} {s t : State} {a v : Word}
    (loaded : t.load a = v) (frame : Frame ds [] octets n s t) : FetchSees s a v t := by
  have pc : t.pc = s.pc := frame.ctrl .pc List.not_mem_nil
  refine ⟨pc, ?first, ?second⟩
  case first =>
    intro atPc
    rw [fetch_first, pc, ← atPc, loaded]
  case second =>
    intro afterPc imp
    rw [fetch_two t params imp]
    change t.load (t.pc + 1#16) = v
    rw [pc, ← afterPc, loaded]

/-- Settles O16: each store's statement says what a load reads there and that PC stands. -/
theorem storeIsSeenByNextFetch : Obligations.StoreIsSeenByNextFetch := by
  intro a s
  obtain ⟨str, impStr⟩ := strStoresWord a s
  obtain ⟨-, psh, impPsh⟩ := pshDecrementsThenStores a s
  refine ⟨fun b => (str b).2.mono ?_, fun n => (impStr n).2.mono ?_, fun b => (psh b).2.mono ?_,
    fun n => (impPsh n).2.mono ?_, fun b => (momCopiesAndSteps a b s).2.mono ?_⟩
  case refine_1 | refine_2 =>
    rintro t ⟨loaded, frame⟩
    exact fetchSees_of_load loaded frame
  case refine_3 | refine_4 =>
    rintro t ⟨-, loaded, frame⟩
    exact fetchSees_of_load loaded frame
  case refine_5 =>
    rintro t ⟨loaded, -, frame⟩
    exact fetchSees_of_load loaded frame

end Sys2Proof.Machine
end

section
/-! PROOFS, family 40_move.md, control register access: `mtc` in both modes, and `mfc` (R132, R133, R135). -/

namespace Sys2Proof.Machine

theorem exec_mtc (k : CregSel) (b : Reg) (s : State) : exec (.mtc k b) s = moveToControl k (s.reg b) s := rfl

theorem exec_impMtc (k : CregSel) (n : Word) (s : State) : exec (.impMtc k n) s = moveToControl k n s := rfl

/-- What a control register write in supervisor mode delivers, by the access mode (R130, R136). -/
theorem moveToControl_completes (k : CregSel) (src : Word) (s : State) (supervisor : s.supervisor = true) :
    Completes (moveToControl k src s) fun t =>
      (if k.idx = .c2 ∨ k.idx = .c3 then t = s else t.held k.idx = modeApply k.mode (s.held k.idx) src) ∧
      Frame [] [k.idx] [] 0 s t := by
  refine ⟨_, moveToControl_supervisor k src s params supervisor, ?written, setCreg_frame s k.idx _ params⟩
  split
  · next reserved => exact setCreg_reserved s k.idx _ params reserved
  · next defined =>
    obtain ⟨notC2, notC3⟩ := not_or.mp defined
    exact setCreg_held_self s k.idx _ notC2 notC3

/-- Settles O19: both forms are one control register write, of x[b] and of n. -/
theorem mtcWritesControlRegisterInSupervisorMode : Obligations.MtcWritesControlRegisterInSupervisorMode := by
  intro k s supervisor
  constructor
  case left =>
    intro b
    exact ⟨encodedOrd_of_encode (by decide) (Laws.selField_lt k) rfl,
      moveToControl_completes k (s.reg b) s supervisor⟩
  case right =>
    intro n
    exact ⟨encodedImp_of_encode (by decide) rfl, moveToControl_completes k n s supervisor⟩

theorem exec_hwi (c : Nat) (s : State) :
    exec (.hwi c) s = .next (if s.supervisor then emitHwi (BitVec.ofNat 16 c) s else s) := rfl

/-- Settles O20: the mode is tested before anything is written. -/
theorem userModeIgnoresMtcAndHwi : Obligations.UserModeIgnoresMtcAndHwi := by
  intro s user
  refine ⟨fun k b => ?mtc, fun k n => ?impMtc, fun c => ?hwi⟩
  case mtc => rw [exec_mtc, moveToControl_user k _ s params user]
  case impMtc => rw [exec_impMtc, moveToControl_user k n s params user]
  case hwi => simp [exec_hwi, user]

/-! `mfc` (R133). -/

theorem exec_mfc (a : Reg) (k : CregSel) (s : State) :
    exec (.mfc a k) s = .next ((s.afterRead k.idx).setReg a (modeApply k.mode (s.reg a) (s.readCreg k.idx))) := rfl

/-- A read of a reserved register draws a free value; any other read changes nothing (log 4). -/
theorem afterRead_frame (s : State) (c : Creg) :
    Frame [] [] [] (if c = .c2 ∨ c = .c3 then 1 else 0) s (s.afterRead c) := by
  cases c with
  | c2 | c3 => exact drawn_frame s
  | _ => exact Frame.refl s

theorem readCreg_params (s : State) (c : Creg) :
    s.readCreg c = if c = .c2 ∨ c = .c3 then Config.cregReserved s.draws (s.held c) else s.held c := by
  cases c <;> rfl

/-- Settles O22: the read, then one register write. -/
theorem mfcReadsControlRegisterInAnyMode : Obligations.MfcReadsControlRegisterInAnyMode := by
  intro a k s
  exact ⟨encodedOrd_of_encode (by decide) a.isLt rfl, _, exec_mfc a k s, reg_setReg_dest _ a _,
    readCreg_params s k.idx, (afterRead_frame s k.idx).trans (setReg_frame _ a _)⟩

end Sys2Proof.Machine
end

section
/-! PROOFS, family 42_arithmetic.md, carries, quotients and remainders. A result is exact in the integers and
then cut into halves, so each half is an integer quotient or residue of it. -/

namespace Sys2Proof.Machine

/-- The write of a quotient and its fraction reaches its destination and EX, and nothing else. -/
theorem writeRegEx_frame (a : Reg) (v : DWord) (s : State) : Frame [a] [.ex] [] 0 s (writeRegEx a v s) :=
  (setEx_frame s _).trans (setReg_frame _ a _)

/-- Two forms that both write `value` of the second operand to x[a] meet every statement that the write
meets for all values, and leave all else as it was. -/
theorem bothForms_of_setReg {ord : Reg → Instr} {imp : Word → Instr} {ordId impId : Nat} {a : Reg} {s : State}
    {post : Word → State → Prop} (value : Word → Word) (ordId_lt : ordId < 64) (impId_lt : impId < 32)
    (encodeOrd : ∀ b : Reg, encode (ord b) = [ordWord ordId a.val b.val])
    (encodeImp : ∀ n, encode (imp n) = [impWord impId a.val, n])
    (execOrd : ∀ b, exec (ord b) s = .next (s.setReg a (value (s.reg b))))
    (execImp : ∀ n, exec (imp n) s = .next (s.setReg a (value n)))
    (setReg_post : ∀ y, post y (s.setReg a (value y))) :
    BothForms ord ordId imp impId a s fun y t => post y t ∧ Frame [a] [] [] 0 s t :=
  bothForms_of_next (fun y => s.setReg a (value y)) (fun b => encodedOrd_of_encode ordId_lt a.isLt (encodeOrd b))
    (fun n => encodedImp_of_encode impId_lt (encodeImp n)) execOrd execImp
    fun y => ⟨setReg_post y, setReg_frame s a (value y)⟩

/-! `adx` and `sbx` (R172, R174): EX enters as an addend and takes what is above 16 bits. -/

theorem exec_adx (a b : Reg) (s : State) :
    exec (.adx a b) s = .next (writeExReg a (adx32 .zero s.ex (s.reg a) (s.reg b)) s) := rfl

theorem exec_impAdx (a : Reg) (n : Word) (s : State) :
    exec (.impAdx a n) s = .next (writeExReg a (adx32 .zero s.ex (s.reg a) n) s) := rfl

theorem adx32_zero (ex x y : Word) : adx32 .zero ex x y = BitVec.ofNat 32 (x.toNat + y.toNat + ex.toNat) :=
  BitVec.ofInt_natCast 32 (x.toNat + y.toNat + ex.toNat)

theorem hiHalf_adx32_toNat (ex x y : Word) :
    (hiHalf (adx32 .zero ex x y)).toNat = (x.toNat + y.toNat + ex.toNat) / 0x10000 := by
  have hx := x.isLt
  have hy := y.isLt
  have hex := ex.isLt
  rw [adx32_zero, hiHalf_ofNat, BitVec.toNat_ofNat]
  omega

/-- Settles O24: both forms write the halves of A + B + E, the upper of which is at most 2. -/
theorem adxAddsUnsignedEx : Obligations.AdxAddsUnsignedEx := by
  intro a s
  refine bothForms_of_next (fun y => writeExReg a (adx32 .zero s.ex (s.reg a) y) s)
    (fun _ => encodedOrd_of_encode (by decide) a.isLt rfl) (fun _ => encodedImp_of_encode (by decide) rfl)
    (exec_adx a · s) (exec_impAdx a · s) fun y => ⟨?sum, ?rest, ?atMostTwo, writeExReg_frame a _ s⟩
  case sum => rw [writeExReg_reg, adx32_zero, loHalf_ofNat]
  case rest => rw [writeExReg_ex, hiHalf_adx32_toNat]
  case atMostTwo =>
    have hx := (s.reg a).isLt
    have hy := y.isLt
    have hex := s.ex.isLt
    rw [writeExReg_ex, hiHalf_adx32_toNat]
    omega

theorem exec_sbx (a b : Reg) (s : State) :
    exec (.sbx a b) s = .next (writeExReg a (sbx32 .zero s.ex (s.reg a) (s.reg b)) s) := rfl

theorem exec_impSbx (a : Reg) (n : Word) (s : State) :
    exec (.impSbx a n) s = .next (writeExReg a (sbx32 .zero s.ex (s.reg a) n) s) := rfl

/-- The upper half of a result between -2^16 and 2^17 tells whether it is below, in or above 16 bits. -/
theorem hiHalf_sbx32 (ex x y : Word) : hiHalf (sbx32 .zero ex x y) =
    if (x.toNat : Int) - y.toNat + ex.toNat < 0 then 0xffff#16
    else if (x.toNat : Int) - y.toNat + ex.toNat ≤ 0xffff then 0x0000#16 else 0x0001#16 := by
  have hx := x.isLt
  have hy := y.isLt
  have hex := ex.isLt
  rw [sbx32, hiHalf_ofInt, exAddend]
  split
  · have below : ((x.toNat : Int) - y.toNat + ex.toNat) / 65536 = -1 := by omega
    rw [below]
    decide
  · split
    · have inside : ((x.toNat : Int) - y.toNat + ex.toNat) / 65536 = 0 := by omega
      rw [inside]
      decide
    · have above : ((x.toNat : Int) - y.toNat + ex.toNat) / 65536 = 1 := by omega
      rw [above]
      decide

/-- Settles O26: both forms write the halves of A - B + E. -/
theorem sbxAddsUnsignedExToDifference : Obligations.SbxAddsUnsignedExToDifference := by
  intro a s
  refine bothForms_of_next (fun y => writeExReg a (sbx32 .zero s.ex (s.reg a) y) s)
    (fun _ => encodedOrd_of_encode (by decide) a.isLt rfl) (fun _ => encodedImp_of_encode (by decide) rfl)
    (exec_sbx a · s) (exec_impSbx a · s) fun y => ⟨?low, ?high, writeExReg_frame a _ s⟩
  case low => rw [writeExReg_reg, sbx32, loHalf_ofInt, exAddend]
  case high => rw [writeExReg_ex, hiHalf_sbx32]

/-- The two readings of EX are 2^16 apart, or the same number (U16). -/
theorem exAddend_zero_eq (ex : Word) :
    exAddend .zero ex = exAddend .sign ex + (if 0x8000 ≤ ex.toNat then 1 else 0) * 65536 := by
  simp only [exAddend, BitVec.toInt_eq_toNat_cond]
  split <;> split <;> omega

theorem loHalf_ofInt_add_mul (i k : Int) :
    loHalf (BitVec.ofInt 32 (i + k * 65536)) = loHalf (BitVec.ofInt 32 i) := by
  apply BitVec.eq_of_toNat_eq
  rw [loHalf_ofInt, loHalf_ofInt, BitVec.toNat_ofInt, BitVec.toNat_ofInt]
  omega

theorem hiHalf_ofInt_add_mul (i k : Int) :
    hiHalf (BitVec.ofInt 32 (i + k * 65536)) = hiHalf (BitVec.ofInt 32 i) + BitVec.ofInt 16 k := by
  have quotient : (i + k * 65536) / 65536 = i / 65536 + k := by omega
  rw [hiHalf_ofInt, hiHalf_ofInt, quotient, BitVec.ofInt_add]

theorem adx32_zero_eq_sign (ex x y : Word) : adx32 .zero ex x y =
    BitVec.ofInt 32
      ((x.toNat : Int) + y.toNat + exAddend .sign ex + (if 0x8000 ≤ ex.toNat then 1 else 0) * 65536) := by
  rw [adx32, exAddend_zero_eq, Int.add_assoc _ (exAddend .sign ex)]

theorem sbx32_zero_eq_sign (ex x y : Word) : sbx32 .zero ex x y =
    BitVec.ofInt 32
      ((x.toNat : Int) - y.toNat + exAddend .sign ex + (if 0x8000 ≤ ex.toNat then 1 else 0) * 65536) := by
  rw [sbx32, exAddend_zero_eq, Int.add_assoc _ (exAddend .sign ex)]

/-- Settles O27: adding 2^16 to a result leaves its lower half and adds one to its upper half. -/
theorem exAddendReadingsDifferOnlyInEx : Obligations.ExAddendReadingsDifferOnlyInEx := by
  intro ex x y
  have carry : (if 0x8000 ≤ ex.toNat then 1#16 else 0#16) =
      BitVec.ofInt 16 (if 0x8000 ≤ ex.toNat then 1 else 0) := by
    split <;> rfl
  rw [carry, adx32_zero_eq_sign, sbx32_zero_eq_sign]
  exact ⟨loHalf_ofInt_add_mul _ _, loHalf_ofInt_add_mul _ _, hiHalf_ofInt_add_mul _ _, hiHalf_ofInt_add_mul _ _⟩

/-! `div` and `dvi` (R177, R178): Ra and EX are the halves of a quotient scaled by 2^16. -/

theorem toNat_pos {v : Word} (h : v ≠ 0#16) : 0 < v.toNat :=
  Nat.pos_of_ne_zero fun zero => h (BitVec.eq_of_toNat_eq zero)

/-- A division by zero writes Ra and EX and draws EX's free value. -/
theorem divByZero_frame (a : Reg) (s : State) : Frame [a] [.ex] [] 1 s (divByZero a s) :=
  ((setEx_frame s _).trans (drawn_frame _)).trans (setReg_frame _ a _)

theorem divByZero_reg (a : Reg) (s : State) : (divByZero a s).reg a = if a = 0 then 0#16 else 0xffff#16 :=
  reg_setReg_dest _ a _

theorem divByZero_ex (a : Reg) (s : State) : (divByZero a s).ex = Config.div0Ex s.draws := rfl

theorem exec_div (a b : Reg) (s : State) : exec (.div a b) s =
    .next (if s.reg b = 0#16 then divByZero a s else writeRegEx a (div32 (s.reg a) (s.reg b)) s) :=
  (apply_ite Host.Outcome.next _ _ _).symm

theorem exec_impDiv (a : Reg) (n : Word) (s : State) : exec (.impDiv a n) s =
    .next (if n = 0#16 then divByZero a s else writeRegEx a (div32 (s.reg a) n) s) :=
  (apply_ite Host.Outcome.next _ _ _).symm

theorem hiHalf_div32 (x y : Word) : hiHalf (div32 x y) = BitVec.ofNat 16 (x.toNat / y.toNat) := by
  have unscaled : x.toNat * 65536 / y.toNat / 65536 = x.toNat / y.toNat := by
    rw [Nat.div_right_comm, Nat.mul_div_cancel _ (by decide)]
  rw [div32, hiHalf_ofNat, unscaled]

/-- The fraction: what the remainder, scaled by 2^16, still holds of the divisor. -/
theorem loHalf_div32_toNat {x y : Word} (h : y ≠ 0#16) :
    (loHalf (div32 x y)).toNat = x.toNat % y.toNat * 65536 / y.toNat := by
  have divisor : 0 < y.toNat := toNat_pos h
  have split : x.toNat * 65536 = x.toNat % y.toNat * 65536 + y.toNat * (x.toNat / y.toNat * 65536) := by
    conv_lhs => rw [← Nat.mod_add_div x.toNat y.toNat]
    ring
  have fraction : x.toNat % y.toNat * 65536 / y.toNat < 65536 := by
    have remainder := Nat.mod_lt x.toNat divisor
    rw [Nat.div_lt_iff_lt_mul divisor]
    omega
  rw [div32, loHalf_ofNat, BitVec.toNat_ofNat, split, Nat.add_mul_div_left _ _ divisor]
  exact (Nat.add_mul_mod_self_right _ _ 65536).trans (Nat.mod_eq_of_lt fraction)

/-- Settles O30: a division by zero, or the halves of the scaled quotient. -/
theorem divWritesFixedPointQuotient : Obligations.DivWritesFixedPointQuotient := by
  intro a s
  refine bothForms_of_next (fun y => if y = 0#16 then divByZero a s else writeRegEx a (div32 (s.reg a) y) s)
    (fun _ => encodedOrd_of_encode (by decide) a.isLt rfl) (fun _ => encodedImp_of_encode (by decide) rfl)
    (exec_div a · s) (exec_impDiv a · s) fun y => ?result
  split
  · exact ⟨divByZero_reg a s, divByZero_ex a s, divByZero_frame a s⟩
  · next nonzero =>
    refine ⟨?quotient, ?fraction, writeRegEx_frame a _ s⟩
    case quotient => rw [writeRegEx_reg, hiHalf_div32]
    case fraction => rw [writeRegEx_ex, loHalf_div32_toNat nonzero]

theorem exec_dvi (a b : Reg) (s : State) : exec (.dvi a b) s =
    .next (if s.reg b = 0#16 then divByZero a s else writeRegEx a (dvi32 .towardZero (s.reg a) (s.reg b)) s) :=
  (apply_ite Host.Outcome.next _ _ _).symm

theorem exec_impDvi (a : Reg) (n : Word) (s : State) : exec (.impDvi a n) s =
    .next (if n = 0#16 then divByZero a s else writeRegEx a (dvi32 .towardZero (s.reg a) n) s) :=
  (apply_ite Host.Outcome.next _ _ _).symm

theorem toInt_eq_zero_iff (v : Word) : v.toInt = 0 ↔ v = 0#16 :=
  ⟨fun zero => BitVec.eq_of_toInt_eq zero, fun zero => zero ▸ rfl⟩

theorem toInt_ne_zero {v : Word} (h : v ≠ 0#16) : v.toInt ≠ 0 := mt (toInt_eq_zero_iff v).mp h

/-- The remainder of a division is shorter than the divisor (R178, R180). -/
theorem abs_tmod_lt (x : Int) {y : Int} (h : y ≠ 0) : |x.tmod y| < |y| := by
  rw [Int.abs_eq_natAbs, Int.abs_eq_natAbs, Int.natAbs_tmod]
  exact_mod_cast Nat.mod_lt _ (Int.natAbs_pos.mpr h)

/-- The remainder is 0 or has the sign of the dividend (R180). -/
theorem tmod_mul_self_nonneg (x y : Int) : 0 ≤ x.tmod y * x := by
  obtain hx | hx := Int.le_total 0 x
  · exact Int.mul_nonneg (Int.tmod_nonneg y hx) hx
  · have negated : 0 ≤ (-x).tmod y := Int.tmod_nonneg y (by omega)
    rw [Int.neg_tmod] at negated
    exact Int.mul_nonneg_of_nonpos_of_nonpos (by omega) hx

/-- The rounded quotient times the divisor is no longer than the dividend. -/
theorem abs_tdiv_mul_le (x y : Int) : |x.tdiv y * y| ≤ |x| := by
  rw [Int.abs_eq_natAbs, Int.abs_eq_natAbs, Int.natAbs_mul, Int.natAbs_tdiv]
  exact_mod_cast Nat.div_mul_le_self _ _

theorem tdiv_mul_self_nonneg (x y : Int) : 0 ≤ x.tdiv y * y * x := by
  have shorter : |x.tmod y| ≤ |x| := by
    rw [Int.abs_eq_natAbs, Int.abs_eq_natAbs, Int.natAbs_tmod]
    exact_mod_cast Nat.mod_le _ _
  have remainder : x.tmod y * x ≤ x * x :=
    calc x.tmod y * x
      _ ≤ |x.tmod y| * |x| := (le_abs_self _).trans_eq (abs_mul _ _)
      _ ≤ |x| * |x| := Int.mul_le_mul_of_nonneg_right shorter (abs_nonneg x)
      _ = x * x := abs_mul_abs_self x
  calc 0
    _ ≤ x * x - x.tmod y * x := Int.sub_nonneg_of_le remainder
    _ = (x - x.tmod y) * x := (Int.sub_mul _ _ _).symm
    _ = x.tdiv y * y * x := by rw [Int.sub_eq_iff_eq_add.mpr (Int.tdiv_mul_add_tmod x y).symm]

/-- Settles O31: a division by zero, or the halves of the scaled quotient rounded toward zero. -/
theorem dviWritesSignedFixedPointQuotient : Obligations.DviWritesSignedFixedPointQuotient := by
  intro a s
  refine bothForms_of_next
    (fun y => if y = 0#16 then divByZero a s else writeRegEx a (dvi32 .towardZero (s.reg a) y) s)
    (fun _ => encodedOrd_of_encode (by decide) a.isLt rfl) (fun _ => encodedImp_of_encode (by decide) rfl)
    (exec_dvi a · s) (exec_impDvi a · s) fun y => ?result
  split
  · exact ⟨divByZero_reg a s, divByZero_ex a s, divByZero_frame a s⟩
  · next nonzero =>
    refine ⟨((s.reg a).toInt * 65536).tdiv y.toInt, abs_tdiv_mul_le _ _, ?remainder, ?sign, writeRegEx_reg a _ s,
      writeRegEx_ex a _ s, writeRegEx_frame a _ s⟩
    case remainder =>
      rw [Int.sub_eq_iff_eq_add'.mpr (Int.tdiv_mul_add_tmod _ y.toInt).symm]
      exact abs_tmod_lt _ (toInt_ne_zero nonzero)
    case sign =>
      have scaled := tdiv_mul_self_nonneg ((s.reg a).toInt * 65536) y.toInt
      rw [← Int.mul_assoc] at scaled
      exact nonneg_of_mul_nonneg_left scaled (by decide)

/-! `mod` and `mdi` (R179, R180): a zero divisor is itself the result. -/

theorem exec_mod (a b : Reg) (s : State) :
    exec (.mod a b) s = .next (s.setReg a (mod16 (s.reg a) (s.reg b))) := rfl

theorem exec_impMod (a : Reg) (n : Word) (s : State) :
    exec (.impMod a n) s = .next (s.setReg a (mod16 (s.reg a) n)) := rfl

theorem mod16_toNat (x y : Word) : (mod16 x y).toNat = if y = 0#16 then 0 else x.toNat % y.toNat := by
  rw [mod16]
  split
  · next zero => rw [zero]; rfl
  · rw [BitVec.toNat_ofNat]
    exact Nat.mod_eq_of_lt (Nat.lt_of_le_of_lt (Nat.mod_le _ _) x.isLt)

/-- Settles O32: both forms are one register write of the remainder. -/
theorem modWritesUnsignedRemainder : Obligations.ModWritesUnsignedRemainder := by
  intro a s
  refine bothForms_of_setReg (mod16 (s.reg a)) (by decide) (by decide) (fun _ => rfl) (fun _ => rfl)
    (exec_mod a · s) (exec_impMod a · s) fun y => ?remainder
  by_cases ha : a = 0
  · simp [ha]
  · simp [reg_setReg_dest, ha, mod16_toNat]

theorem exec_mdi (a b : Reg) (s : State) :
    exec (.mdi a b) s = .next (s.setReg a (mdi16 .dividend (s.reg a) (s.reg b))) := rfl

theorem exec_impMdi (a : Reg) (n : Word) (s : State) :
    exec (.impMdi a n) s = .next (s.setReg a (mdi16 .dividend (s.reg a) n)) := rfl

theorem mdi16_of_zero (p : RemainderSign) (x : Word) : mdi16 p x 0#16 = 0#16 := if_pos rfl

/-- The remainder is shorter than the divisor, so it fits a word. -/
theorem mdi16_dividend_toInt (x : Word) {y : Word} (h : y ≠ 0#16) :
    (mdi16 .dividend x y).toInt = x.toInt.tmod y.toInt := by
  have short := abs_lt.mp (abs_tmod_lt x.toInt (toInt_ne_zero h))
  have magnitude : |y.toInt| ≤ 2 ^ 15 := abs_le.mpr ⟨BitVec.le_toInt y, y.toInt_lt.le⟩
  have remainder : x.toInt - y.toInt * x.toInt.tdiv y.toInt = x.toInt.tmod y.toInt := (Int.tmod_def _ _).symm
  rw [mdi16, if_neg h, remainder]
  apply BitVec.toInt_ofInt_eq_self (by decide) <;> omega

/-- Settles O33: both forms are one register write of the remainder that rounding toward zero leaves. -/
theorem mdiWritesRemainderWithDividendSign : Obligations.MdiWritesRemainderWithDividendSign := by
  intro a s
  refine bothForms_of_setReg (mdi16 .dividend (s.reg a)) (by decide) (by decide) (fun _ => rfl) (fun _ => rfl)
    (exec_mdi a · s) (exec_impMdi a · s) fun y => ?remainder
  rw [reg_setReg_dest]
  split
  · next discarded =>
    split
    · rfl
    · next ha => rw [discarded.resolve_left ha, mdi16_of_zero]
  · next written =>
    obtain ⟨ha, nonzero⟩ := not_or.mp written
    rw [if_neg ha, mdi16_dividend_toInt _ nonzero]
    exact ⟨(s.reg a).toInt.tdiv y.toInt, (Int.mul_tdiv_add_tmod _ _).symm, abs_tmod_lt _ (toInt_ne_zero nonzero),
      tmod_mul_self_nonneg _ _⟩

/-! `inc` (R181, R193). -/

theorem exec_inc (a : Reg) (imm : Int) (s : State) :
    exec (.inc a imm) s = .next (s.setReg a (addSigned (s.reg a) imm)) := rfl

theorem exec_impInc (a : Reg) (n : Word) (s : State) :
    exec (.impInc a n) s = .next (s.setReg a (s.reg a + n)) := rfl

/-- Settles O34: both forms are one register write of the sum. -/
theorem incAddsImmediateWithoutEx : Obligations.IncAddsImmediateWithoutEx := by
  intro a s
  constructor
  case left =>
    intro imm
    exact ⟨encodedOrd_of_encode (by decide) a.isLt rfl, _, exec_inc a imm s, reg_setReg_dest s a _,
      setReg_frame s a _⟩
  case right =>
    intro n
    refine ⟨encodedImp_of_encode (by decide) rfl, _, exec_impInc a n s, ?_, setReg_frame s a _⟩
    rw [reg_setReg_dest, BitVec.add_def]

/-! `gbs` (R182). -/

/-- The search from bit k down finds the highest set bit of a value below 2^(k+1). -/
theorem highestBit_spec (v : Word) (k : Nat) (nonzero : v ≠ 0#16) (bound : v.toNat < 2 ^ (k + 1)) :
    2 ^ highestBit v k ≤ v.toNat ∧ v.toNat < 2 ^ (highestBit v k + 1) := by
  induction k with
  | zero => exact ⟨toNat_pos nonzero, bound⟩
  | succ k ih =>
    rw [highestBit]
    split
    · next found => exact ⟨Nat.ge_two_pow_of_testBit found, bound⟩
    · next clear =>
      refine ih (Nat.lt_pow_two_of_testBit _ fun i hi => ?_)
      obtain here | above := Nat.eq_or_lt_of_le hi
      · exact here ▸ Bool.eq_false_iff.mpr clear
      · exact Nat.testBit_lt_two_pow (bound.trans_le (Nat.pow_le_pow_right (by decide) above))

/-- Settles O35: a free value for 0, or the number the search finds. -/
theorem gbsFindsGreatestBitSet : Obligations.GbsFindsGreatestBitSet := by
  intro a b s
  refine ⟨encodedOrd_of_encode (by decide) a.isLt rfl, ?_⟩
  obtain ⟨zero, next⟩ | ⟨nonzero, next⟩ := execGbs_cases a b s
  · have drawn : Frame [a] [] [] 1 s (s.drawn.setReg a (Config.gbsZero s.draws)) :=
      (drawn_frame s).trans (setReg_frame _ a _)
    exact ⟨_, next, (if_pos zero).mpr ⟨reg_setReg_dest _ a _, drawn⟩⟩
  · obtain ⟨lower, upper⟩ := highestBit_spec (s.reg b) 15 nonzero (s.reg b).isLt
    exact ⟨_, next, (if_neg nonzero).mpr ⟨_, lower, upper, reg_setReg_dest s a _, setReg_frame s a _⟩⟩

end Sys2Proof.Machine
end

section
/-! PROOFS, family 43_logic_shift.md. Logic and rotates are one register write each (R210), read bit by bit;
a shift is a 32-bit product or floor quotient by a power of two, and its halves. -/

namespace Sys2Proof.Machine

/-! Logic (R211 to R214). -/

theorem exec_and (a b : Reg) (s : State) : exec (.and a b) s = .next (s.setReg a (s.reg a &&& s.reg b)) := rfl

theorem exec_impAnd (a : Reg) (n : Word) (s : State) :
    exec (.impAnd a n) s = .next (s.setReg a (s.reg a &&& n)) := rfl

theorem exec_ior (a b : Reg) (s : State) : exec (.ior a b) s = .next (s.setReg a (s.reg a ||| s.reg b)) := rfl

theorem exec_impIor (a : Reg) (n : Word) (s : State) :
    exec (.impIor a n) s = .next (s.setReg a (s.reg a ||| n)) := rfl

theorem exec_xor (a b : Reg) (s : State) : exec (.xor a b) s = .next (s.setReg a (s.reg a ^^^ s.reg b)) := rfl

theorem exec_impXor (a : Reg) (n : Word) (s : State) :
    exec (.impXor a n) s = .next (s.setReg a (s.reg a ^^^ n)) := rfl

theorem exec_bic (a b : Reg) (s : State) : exec (.bic a b) s = .next (s.setReg a (bic16 (s.reg a) (s.reg b))) := rfl

theorem exec_impBic (a : Reg) (n : Word) (s : State) :
    exec (.impBic a n) s = .next (s.setReg a (bic16 (s.reg a) n)) := rfl

/-- A bit of the destination of a write: a bit of the value, or 0 where the write is discarded (R22). -/
theorem getLsbD_reg_setReg (s : State) (a : Reg) (v : Word) (j : Nat) :
    ((s.setReg a v).reg a).getLsbD j = (decide (a ≠ 0) && v.getLsbD j) := by
  rw [reg_setReg_dest]
  split
  · next zero => simp [zero]
  · next other => simp [other]

/-- Settles O36: a bit of the result is the operation on the operands' bits. -/
theorem logicIsBitwiseWithoutEx : Obligations.LogicIsBitwiseWithoutEx := by
  intro a s
  refine ⟨?and, ?ior, ?xor⟩
  case and =>
    refine bothForms_of_setReg (s.reg a &&& ·) (by decide) (by decide) (fun _ => rfl) (fun _ => rfl)
      (exec_and a · s) (exec_impAnd a · s) fun y j _ => ?bits
    case bits => rw [getLsbD_reg_setReg, BitVec.getLsbD_and]
  case ior =>
    refine bothForms_of_setReg (s.reg a ||| ·) (by decide) (by decide) (fun _ => rfl) (fun _ => rfl)
      (exec_ior a · s) (exec_impIor a · s) fun y j _ => ?bits
    case bits => rw [getLsbD_reg_setReg, BitVec.getLsbD_or]
  case xor =>
    refine bothForms_of_setReg (s.reg a ^^^ ·) (by decide) (by decide) (fun _ => rfl) (fun _ => rfl)
      (exec_xor a · s) (exec_impXor a · s) fun y j _ => ?bits
    case bits => rw [getLsbD_reg_setReg, BitVec.getLsbD_xor]

theorem getLsbD_bic16 (x y : Word) {j : Nat} (hj : j < 16) :
    (bic16 x y).getLsbD j = (x.getLsbD j && !y.getLsbD j) := by
  simp [bic16, hj]

/-- Settles O37: a bit of the result is a bit of Ra that the operand does not clear. -/
theorem bicClearsTheBitsSetInTheOperand : Obligations.BicClearsTheBitsSetInTheOperand := by
  intro a s
  refine bothForms_of_setReg (bic16 (s.reg a)) (by decide) (by decide) (fun _ => rfl) (fun _ => rfl)
    (exec_bic a · s) (exec_impBic a · s) fun y j hj => ?bits
  case bits => rw [getLsbD_reg_setReg, getLsbD_bic16 _ _ hj]

/-! Shifts (R215 to R217). -/

theorem exec_shl (a b : Reg) (s : State) :
    exec (.shl a b) s = .next (writeExReg a (shl32 (s.reg a) (s.reg b).toNat) s) := rfl

theorem exec_impShl (a : Reg) (n : Word) (s : State) :
    exec (.impShl a n) s = .next (writeExReg a (shl32 (s.reg a) n.toNat) s) := rfl

theorem shl32_eq_ofNat (x : Word) (n : Nat) : shl32 x n = BitVec.ofNat 32 (x.toNat * 2 ^ n) := by
  apply BitVec.eq_of_toNat_eq
  rw [shl32, BitVec.toNat_shiftLeft, BitVec.toNat_setWidth_of_le (by decide), Nat.shiftLeft_eq, BitVec.toNat_ofNat]

/-- Settles O38: both forms write the halves of A * 2^B. -/
theorem shlSpillsIntoEx : Obligations.ShlSpillsIntoEx := by
  intro a s
  refine bothForms_of_next (fun y => writeExReg a (shl32 (s.reg a) y.toNat) s)
    (fun _ => encodedOrd_of_encode (by decide) a.isLt rfl) (fun _ => encodedImp_of_encode (by decide) rfl)
    (exec_shl a · s) (exec_impShl a · s) fun y => ⟨?low, ?high, writeExReg_frame a _ s⟩
  case low => rw [writeExReg_reg, shl32_eq_ofNat, loHalf_ofNat]
  case high => rw [writeExReg_ex, shl32_eq_ofNat, hiHalf_ofNat]

theorem exec_shr (a b : Reg) (s : State) :
    exec (.shr a b) s = .next (writeRegEx a (shr32 (s.reg a) (s.reg b).toNat) s) := rfl

theorem exec_impShr (a : Reg) (n : Word) (s : State) :
    exec (.impShr a n) s = .next (writeRegEx a (shr32 (s.reg a) n.toNat) s) := rfl

/-- A word over sixteen zeros is the word scaled by 2^16. -/
theorem append_zero_toNat (x : Word) : (x ++ 0#16 : DWord).toNat = x.toNat * 65536 := by
  rw [BitVec.toNat_append, BitVec.toNat_ofNat, Nat.zero_mod, Nat.or_zero, Nat.shiftLeft_eq]

theorem append_zero_toInt (x : Word) : (x ++ 0#16 : DWord).toInt = x.toInt * 65536 := by
  have hx := x.isLt
  rw [BitVec.toInt_eq_toNat_cond, BitVec.toInt_eq_toNat_cond, append_zero_toNat]
  split <;> split <;> omega

theorem shr32_eq_ofNat (x : Word) (n : Nat) : shr32 x n = BitVec.ofNat 32 (x.toNat * 65536 / 2 ^ n) := by
  have toNat : (shr32 x n).toNat = x.toNat * 65536 / 2 ^ n := by
    rw [shr32, BitVec.toNat_ushiftRight, append_zero_toNat, Nat.shiftRight_eq_div_pow]
  rw [← toNat, BitVec.ofNat_toNat, BitVec.setWidth_eq]

theorem hiHalf_shr32 (x : Word) (n : Nat) : hiHalf (shr32 x n) = BitVec.ofNat 16 (x.toNat / 2 ^ n) := by
  rw [shr32_eq_ofNat, hiHalf_ofNat, Nat.div_right_comm, Nat.mul_div_cancel _ (by decide)]

/-- Settles O39: both forms write the halves of the scaled floor quotient. -/
theorem shrSpillsIntoEx : Obligations.ShrSpillsIntoEx := by
  intro a s
  refine bothForms_of_next (fun y => writeRegEx a (shr32 (s.reg a) y.toNat) s)
    (fun _ => encodedOrd_of_encode (by decide) a.isLt rfl) (fun _ => encodedImp_of_encode (by decide) rfl)
    (exec_shr a · s) (exec_impShr a · s) fun y => ⟨?quotient, ?spill, writeRegEx_frame a _ s⟩
  case quotient => rw [writeRegEx_reg, hiHalf_shr32]
  case spill => rw [writeRegEx_ex, shr32_eq_ofNat, loHalf_ofNat]

theorem exec_asr (a b : Reg) (s : State) :
    exec (.asr a b) s = .next (writeRegEx a (asr32 (s.reg a) (s.reg b).toNat) s) := rfl

theorem exec_impAsr (a : Reg) (n : Word) (s : State) :
    exec (.impAsr a n) s = .next (writeRegEx a (asr32 (s.reg a) n.toNat) s) := rfl

theorem asr32_eq_ofInt (x : Word) (n : Nat) : asr32 x n = BitVec.ofInt 32 (x.toInt * 65536 / 2 ^ n) := by
  rw [asr32, BitVec.sshiftRight, append_zero_toInt, Int.shiftRight_eq_div_pow]
  norm_cast

theorem hiHalf_asr32 (x : Word) (n : Nat) : hiHalf (asr32 x n) = BitVec.ofInt 16 (x.toInt / 2 ^ n) := by
  have unscaled : x.toInt * 65536 / 2 ^ n / 65536 = x.toInt / 2 ^ n := by
    rw [Int.ediv_ediv_of_nonneg (by positivity), Int.mul_comm (2 ^ n), ← Int.ediv_ediv_of_nonneg (by decide),
      Int.mul_ediv_cancel _ (by decide)]
  rw [asr32_eq_ofInt, hiHalf_ofInt, unscaled]

/-- Settles O40: both forms write the halves of the scaled floor quotient of the signed operand. -/
theorem asrSpillsIntoEx : Obligations.AsrSpillsIntoEx := by
  intro a s
  refine bothForms_of_next (fun y => writeRegEx a (asr32 (s.reg a) y.toNat) s)
    (fun _ => encodedOrd_of_encode (by decide) a.isLt rfl) (fun _ => encodedImp_of_encode (by decide) rfl)
    (exec_asr a · s) (exec_impAsr a · s) fun y => ⟨?quotient, ?spill, writeRegEx_frame a _ s⟩
  case quotient => rw [writeRegEx_reg, hiHalf_asr32]
  case spill => rw [writeRegEx_ex, asr32_eq_ofInt, loHalf_ofInt]

/-! Rotates (R218, R219). -/

theorem exec_rol (a b : Reg) (s : State) :
    exec (.rol a b) s = .next (s.setReg a (rol16 (s.reg a) ((s.reg b).toNat % 16))) :=
  rolInto_params a (s.reg b) s

theorem exec_impRol (a : Reg) (n : Word) (s : State) :
    exec (.impRol a n) s = .next (s.setReg a (rol16 (s.reg a) (n.toNat % 16))) := rolInto_params a n s

theorem exec_ror (a b : Reg) (s : State) :
    exec (.ror a b) s = .next (s.setReg a (ror16 (s.reg a) ((s.reg b).toNat % 16))) :=
  rorInto_params a (s.reg b) s

theorem exec_impRor (a : Reg) (n : Word) (s : State) :
    exec (.impRor a n) s = .next (s.setReg a (ror16 (s.reg a) (n.toNat % 16))) := rorInto_params a n s

/-- Bit j of a left rotate comes from the right shift below the count, from the left shift above it. -/
theorem getLsbD_rol16 (x : Word) {r j : Nat} (hr : r < 16) (hj : j < 16) :
    (rol16 x r).getLsbD j = x.getLsbD ((j + 16 - r) % 16) := by
  rw [rol16, BitVec.getLsbD_or, BitVec.getLsbD_shiftLeft, BitVec.getLsbD_ushiftRight]
  by_cases below : j < r
  · have source : (j + 16 - r) % 16 = 16 - r + j := by omega
    simp [below, source]
  · have source : (j + 16 - r) % 16 = j - r := by omega
    have outside : x.getLsbD (16 - r + j) = false := BitVec.getLsbD_of_ge _ _ (by omega)
    simp [below, source, outside, hj]

/-- Bit j of a right rotate comes from the right shift while j + r is a bit's number, from the left shift after. -/
theorem getLsbD_ror16 (x : Word) {r j : Nat} (hr : r < 16) (hj : j < 16) :
    (ror16 x r).getLsbD j = x.getLsbD ((j + r) % 16) := by
  rw [ror16, BitVec.getLsbD_or, BitVec.getLsbD_shiftLeft, BitVec.getLsbD_ushiftRight]
  by_cases inside : j + r < 16
  · have source : (j + r) % 16 = r + j := by omega
    have shiftedOut : j < 16 - r := by omega
    simp [shiftedOut, source]
  · have source : (j + r) % 16 = j - (16 - r) := by omega
    have kept : ¬ j < 16 - r := by omega
    have outside : x.getLsbD (r + j) = false := BitVec.getLsbD_of_ge _ _ (by omega)
    simp [kept, source, outside, hj]

/-- Settles O41: both rotates, bit by bit, by the count modulo 16. -/
theorem rotatesMoveBitsRound : Obligations.RotatesMoveBitsRound := by
  intro a s
  have count_lt (y : Word) : y.toNat % 16 < 16 := Nat.mod_lt _ (by decide)
  refine ⟨?rol, ?ror⟩
  case rol =>
    refine bothForms_of_setReg (fun y => rol16 (s.reg a) (y.toNat % 16)) (by decide) (by decide) (fun _ => rfl)
      (fun _ => rfl) (exec_rol a · s) (exec_impRol a · s) fun y j hj => ?bits
    case bits => rw [getLsbD_reg_setReg, getLsbD_rol16 _ (count_lt y) hj]
  case ror =>
    refine bothForms_of_setReg (fun y => ror16 (s.reg a) (y.toNat % 16)) (by decide) (by decide) (fun _ => rfl)
      (fun _ => rfl) (exec_ror a · s) (exec_impRor a · s) fun y j hj => ?bits
    case bits => rw [getLsbD_reg_setReg, getLsbD_ror16 _ (count_lt y) hj]

end Sys2Proof.Machine
end

section
/-! PROOFS, families 44_test_compare.md and 45_control_transfer.md. Every jump is `jumpIf` of a condition on
EX; what the condition says of EX's bits, and after `cmp` of its operands, is a fact about words. -/

namespace Sys2Proof

theorem unaWord_eq_shifts {id c : Nat} (hid : id < 64) : unaWord id c = BitVec.ofNat 16 ((c <<< 6) ||| id) := by
  rw [← Nat.shiftLeft_add_eq_or_of_lt hid, unaWord]
  congr 1
  omega

end Sys2Proof

namespace Sys2Proof.Machine

theorem encodedUna_of_encode {i : Instr} {id c : Nat} (hid : id < 64) (h : encode i = [unaWord id c]) :
    EncodedUna i id c := by
  rw [EncodedUna, h, unaWord_eq_shifts hid]

/-! `srl` (R261, R262). -/

theorem exec_srl (a b : Reg) (s : State) :
    exec (.srl a b) s = .next ((s.setReg a s.pc).setPc ((s.setReg a s.pc).reg b)) := rfl

theorem exec_impSrl (a : Reg) (n : Word) (s : State) :
    exec (.impSrl a n) s = .next ((s.setReg a s.pc).setPc n) := rfl

theorem link_frame (a : Reg) (target : Word) (s : State) :
    Frame [a] [.pc] [] 0 s ((s.setReg a s.pc).setPc target) :=
  (setReg_frame s a s.pc).trans (setPc_frame _ target)

/-- Settles O44: the link, then the jump that reads the registers as the link left them. -/
theorem srlLinksThenJumps : Obligations.SrlLinksThenJumps := by
  intro a s
  constructor
  case left =>
    intro b
    refine ⟨encodedOrd_of_encode (by decide) a.isLt rfl, _, exec_srl a b s, reg_setReg_dest s a s.pc, ?target,
      link_frame a _ s⟩
    rw [setPc_pc]
    by_cases same : b = a
    · subst same
      rw [reg_setReg_dest]
      by_cases zero : b = 0
      · simp [zero]
      · simp [zero]
    · rw [reg_setReg_other s a b _ same, if_neg fun h => same h.1]
  case right =>
    intro n
    exact ⟨encodedImp_of_encode (by decide) rfl, _, exec_impSrl a n s, reg_setReg_dest s a s.pc, setPc_pc _ n,
      link_frame a n s⟩

/-! The conditions on EX (R264 to R270). -/

theorem toInt_neg_iff_bit15 (ex : Word) : ex.toInt < 0 ↔ ex.getLsbD 15 = true := by
  rw [← decide_eq_true_iff (p := ex.toInt < 0), ← BitVec.msb_eq_toInt, BitVec.msb_eq_getLsbD_last]

theorem toInt_nonneg_iff_bit15 (ex : Word) : 0 ≤ ex.toInt ↔ ex.getLsbD 15 = false := by
  rw [← Int.not_lt, toInt_neg_iff_bit15, Bool.not_eq_true]

theorem exLt_iff (ex : Word) : exLt ex = true ↔ ex.getLsbD 15 = true := by
  rw [exLt, decide_eq_true_iff, toInt_neg_iff_bit15]

theorem exLe_iff (ex : Word) : exLe ex = true ↔ ex.getLsbD 15 = true ∨ ex = 0#16 := by
  rw [exLe, decide_eq_true_iff, Int.le_iff_lt_or_eq, toInt_neg_iff_bit15, toInt_eq_zero_iff]

theorem exGt_iff (ex : Word) : exGt ex = true ↔ ex.getLsbD 15 = false ∧ ex ≠ 0#16 := by
  rw [exGt, decide_eq_true_iff, ← toInt_nonneg_iff_bit15, ne_eq, ← toInt_eq_zero_iff]
  omega

theorem exGe_iff (ex : Word) : exGe ex = true ↔ ex.getLsbD 15 = false := by
  rw [exGe, decide_eq_true_iff, toInt_nonneg_iff_bit15]

theorem exEq_iff (ex : Word) : exEq ex = true ↔ ex = 0#16 := decide_eq_true_iff

theorem exNe_iff (ex : Word) : exNe ex = true ↔ ex ≠ 0#16 := decide_eq_true_iff

/-- An instruction that is `jumpIf` of a condition jumps when the condition holds (R263). -/
theorem jumpsWhen_of_jumpIf {i : Instr} {id : Nat} {off : Int} {s : State} {cond : Bool} {taken : Prop}
    [Decidable taken] (hid : id < 64) (encoding : encode i = [unaWord id (field10 off)])
    (meaning : exec i s = jumpIf cond off s) (cond_iff : cond = true ↔ taken) : JumpsWhen i id off s taken := by
  refine ⟨encodedUna_of_encode hid encoding, ?_⟩
  rw [meaning]
  by_cases h : taken
  · rw [cond_iff.mpr h, jumpIf_true]
    exact ⟨_, rfl, (if_pos h).symm, setPc_frame s _⟩
  · rw [Bool.eq_false_iff.mpr (mt cond_iff.mp h), jumpIf_false]
    exact ⟨_, rfl, (if_neg h).symm, Frame.refl s⟩

/-- Settles O45: each jump's condition, read in the bits of EX. -/
theorem jumpsFollowTheConditionInEx : Obligations.JumpsFollowTheConditionInEx := by
  intro off s
  exact ⟨jumpsWhen_of_jumpIf (cond := true) (by decide) rfl rfl (iff_of_true rfl trivial),
    jumpsWhen_of_jumpIf (by decide) rfl rfl (exLt_iff s.ex), jumpsWhen_of_jumpIf (by decide) rfl rfl (exLe_iff s.ex),
    jumpsWhen_of_jumpIf (by decide) rfl rfl (exGt_iff s.ex), jumpsWhen_of_jumpIf (by decide) rfl rfl (exGe_iff s.ex),
    jumpsWhen_of_jumpIf (by decide) rfl rfl (exEq_iff s.ex), jumpsWhen_of_jumpIf (by decide) rfl rfl (exNe_iff s.ex)⟩

/-! After `cmp` (R249). -/

/-- A difference in the range of a word is read back exactly. -/
theorem toInt_sub_of_fits {x y : Word} (low : -32768 ≤ x.toInt - y.toInt) (high : x.toInt - y.toInt ≤ 32767) :
    (x - y).toInt = x.toInt - y.toInt := by
  rw [BitVec.toInt_sub]
  apply Int.bmod_eq_of_le <;> omega

/-- Where a jump's condition after `cmp` says `decision` of the operands, the jump follows `decision`. -/
theorem JumpsWhen.pc_of_iff {i : Instr} {id : Nat} {off : Int} {s : State} {v : Word} {taken decision : Prop}
    [Decidable taken] [Decidable decision] (h : JumpsWhen i id off (s.setEx v) taken)
    (decides : taken ↔ decision) :
    Completes (exec i (s.setEx v)) fun u =>
      u.pc = if decision then BitVec.ofInt 16 (s.pc.toNat + off) else s.pc := by
  obtain ⟨-, u, next, pc, -⟩ := h
  exact ⟨u, next, pc.trans (if_congr decides rfl rfl)⟩

/-- Settles O43: the jumps' conditions on the difference that `cmp` leaves in EX. -/
theorem cmpThenJumpDecidesComparison : Obligations.CmpThenJumpDecidesComparison := by
  intro a b off s
  obtain ⟨-, jlt, jle, jgt, jge, jeq, jne⟩ := jumpsFollowTheConditionInEx off (s.setEx (s.reg a - s.reg b))
  have equal : s.reg a - s.reg b = 0#16 ↔ s.reg a = s.reg b := sub_eq_zero
  refine ⟨_, exec_cmp a b s, jeq.pc_of_iff equal, jne.pc_of_iff (not_congr equal), fun low high => ?ordered⟩
  have difference := toInt_sub_of_fits low high
  simp only [setEx_ex] at jlt jle jgt jge
  refine ⟨jlt.pc_of_iff ?lt, jle.pc_of_iff ?le, jgt.pc_of_iff ?gt, jge.pc_of_iff ?ge⟩
  case lt =>
    rw [← toInt_neg_iff_bit15, difference]
    omega
  case le =>
    rw [← toInt_neg_iff_bit15, ← toInt_eq_zero_iff, difference]
    omega
  case gt =>
    rw [← toInt_nonneg_iff_bit15, ne_eq, ← toInt_eq_zero_iff, difference]
    omega
  case ge =>
    rw [← toInt_nonneg_iff_bit15, difference]
    omega

end Sys2Proof.Machine
end

section
/-! PROOFS, family 46_interrupt_instructions.md. Interrupt entry and return are one operation each; what they
do to FL is read bit by bit. -/

namespace Sys2Proof.Machine

/-! The bits of the FL masks (R33 to R36). -/

theorem getLsbD_flI {j : Nat} (hj : j < 16) : flI.getLsbD j = decide (j = 15) := by
  revert j
  decide

theorem getLsbD_flH {j : Nat} (hj : j < 16) : flH.getLsbD j = decide (j = 14) := by
  revert j
  decide

theorem getLsbD_flS {j : Nat} (hj : j < 16) : flS.getLsbD j = decide (j = 0) := by
  revert j
  decide

theorem getLsbD_flSet (fl mask : Word) (j : Nat) : (flSet fl mask).getLsbD j = (fl.getLsbD j || mask.getLsbD j) :=
  BitVec.getLsbD_or

theorem getLsbD_flClear (fl mask : Word) {j : Nat} (hj : j < 16) :
    (flClear fl mask).getLsbD j = (fl.getLsbD j && !mask.getLsbD j) := by
  simp [flClear, hj]

/-- Entry by an instruction sets I and S (R305). -/
theorem getLsbD_entryFl_software (fl : Word) {j : Nat} (hj : j < 16) :
    (entryFl .software fl).getLsbD j = (fl.getLsbD j || decide (j = 15 ∨ j = 0)) := by
  rw [entryFl, getLsbD_flSet, getLsbD_flSet, getLsbD_flI hj, getLsbD_flS hj, Bool.or_assoc, Bool.decide_or]

/-- Entry by a request sets H too (R306). -/
theorem getLsbD_entryFl_hardware (fl : Word) {j : Nat} (hj : j < 16) :
    (entryFl .hardware fl).getLsbD j = (fl.getLsbD j || decide (j = 15 ∨ j = 14 ∨ j = 0)) := by
  rw [entryFl, getLsbD_flSet, getLsbD_flSet, getLsbD_flSet, getLsbD_flI hj, getLsbD_flS hj, getLsbD_flH hj]
  simp only [Bool.decide_or, Bool.or_assoc, Bool.or_comm (decide (j = 14))]

/-- Return clears I, and S when it is to user mode (R310). -/
theorem getLsbD_returnFl (toUser : Bool) (fl : Word) {j : Nat} (hj : j < 16) :
    (returnFl toUser fl).getLsbD j = (fl.getLsbD j && !decide (j = 15 ∨ (j = 0 ∧ toUser = true))) := by
  cases toUser with
  | false =>
    rw [returnFl, if_neg (by decide), getLsbD_flClear _ _ hj, getLsbD_flI hj]
    simp
  | true =>
    rw [returnFl, if_pos rfl, getLsbD_flClear _ _ hj, getLsbD_flClear _ _ hj, getLsbD_flI hj, getLsbD_flS hj]
    simp [Bool.and_assoc]

/-! Entry and return. -/

theorem raiseInterrupt_frame (kind : IntKind) (m : Word) (s : State) :
    Frame [] [.pc, .im, .ir, .fl] [] 0 s (raiseInterrupt kind m s) where
  regs r _ := raiseInterrupt_reg s kind m r
  ctrl c hc := by
    cases c with
    | pc | im | ir | fl => exact absurd (by decide) hc
    | _ => rfl
  memory b _ := congrArg (Memory.octet · b) (raiseInterrupt_mem s kind m)
  requests := raiseInterrupt_requests s kind m
  reactions := raiseInterrupt_hwiReactions s kind m
  events := raiseInterrupt_hwiEvents s kind m
  count := raiseInterrupt_instrCount s kind m
  draws := raiseInterrupt_draws s kind m

theorem returnFromInterrupt_frame (toUser : Bool) (s : State) :
    Frame [] [.pc, .fl] [] 0 s (returnFromInterrupt toUser s) where
  regs r _ := returnFromInterrupt_reg s toUser r
  ctrl c hc := by
    cases c with
    | pc | fl => exact absurd (by decide) hc
    | _ => rfl
  memory b _ := congrArg (Memory.octet · b) (returnFromInterrupt_mem s toUser)
  requests := returnFromInterrupt_requests s toUser
  reactions := returnFromInterrupt_hwiReactions s toUser
  events := returnFromInterrupt_hwiEvents s toUser
  count := returnFromInterrupt_instrCount s toUser
  draws := returnFromInterrupt_draws s toUser

/-! The four instructions (R281, R282, R284, R285). -/

theorem exec_swi (c : Nat) (s : State) :
    exec (.swi c) s = .next (raiseInterrupt .software (BitVec.ofNat 16 c) s) := rfl

theorem exec_impBrk (a : Reg) (n : Word) (s : State) :
    exec (.impBrk a n) s = .next (raiseInterrupt .brk 0xffff#16 s) := rfl

theorem exec_ire (c : Nat) (s : State) : exec (.ire c) s = .next (returnFromInterrupt (c != 0) s) := rfl

/-- Settles O46: interrupt entry with the operand as message. -/
theorem swiEntersTheHandler : Obligations.SwiEntersTheHandler := by
  intro c s
  exact ⟨encodedUna_of_encode (by decide) rfl, _, exec_swi c s, raiseInterrupt_ir .., raiseInterrupt_pc ..,
    raiseInterrupt_im .., fun _ hj => getLsbD_entryFl_software s.fl hj, raiseInterrupt_frame ..⟩

/-- Settles O47: interrupt entry with a fixed message. -/
theorem brkEntersTheHandlerWithMessageFFFF : Obligations.BrkEntersTheHandlerWithMessageFFFF := by
  intro a n s
  exact ⟨encodedImp_of_encode (by decide) rfl, (exec_impBrk a n s).trans (exec_impBrk 0 0#16 s).symm, _,
    exec_impBrk a n s, raiseInterrupt_ir .., raiseInterrupt_pc .., raiseInterrupt_im ..,
    fun _ hj => getLsbD_entryFl_software s.fl hj, raiseInterrupt_frame ..⟩

/-- Settles O48: interrupt return, to user mode when the operand is not 0. -/
theorem ireReturnsAndChoosesTheMode : Obligations.IreReturnsAndChoosesTheMode := by
  intro c s
  refine ⟨encodedUna_of_encode (by decide) rfl, _, exec_ire c s, returnFromInterrupt_pc .., fun j hj => ?bits,
    returnFromInterrupt_frame ..⟩
  case bits =>
    rw [returnFromInterrupt_fl, getLsbD_returnFl _ _ hj]
    simp only [bne_iff_ne]

/-- Settles O49: in supervisor mode the event joins the history. -/
theorem hwiEmitsItsEventInSupervisorMode : Obligations.HwiEmitsItsEventInSupervisorMode := by
  intro c s supervisor
  have emits : exec (.hwi c) s = .next (emitHwi (BitVec.ofNat 16 c) s) := by
    rw [exec_hwi, if_pos supervisor]
  exact ⟨encodedUna_of_encode (by decide) rfl, _, emits, emitHwi_hwiEvents .., rfl⟩

end Sys2Proof.Machine
end

section
/-! PROOFS, what an instruction can change: one inversion of `exec`, and from it the frame of memory (R68), of
EX (R38), of FL (R34 to R37) and of the mode (R323). An instruction either works on data, and then no control
register but PC and EX, no event and nothing of the environment changes, or it is one of the five others. -/

namespace Sys2Proof.Machine

/-- The changes of an instruction that works on data: general registers, PC, draws, and EX and memory where
the instruction computes the one or stores to the other. -/
structure DataEffect (i : Instr) (s t : State) : Prop where
  c2        : t.c2 = s.c2
  c3        : t.c3 = s.c3
  ia        : t.ia = s.ia
  im        : t.im = s.im
  ir        : t.ir = s.ir
  fl        : t.fl = s.fl
  requests  : t.requests = s.requests
  reactions : t.hwiReactions = s.hwiReactions
  events    : t.hwiEvents = s.hwiEvents
  count     : t.instrCount = s.instrCount
  ex        : i.computesEx = false → t.ex = s.ex
  memory    : i.storesMemory = false → t.mem = s.mem
  canonical : s.mem.wf = true → t.mem.wf = true

/-- What an instruction can do to the state. An ignored `mtc`, `imp mtc` or `hwi` has a data effect, the empty one. -/
inductive Effect (s : State) : Instr → State → Prop
  | data {i : Instr} {t : State} (noEntry : i.entersInterrupt = false) (effect : DataEffect i s t) : Effect s i t
  | control {i : Instr} (k : CregSel) (v : Word) (form : (∃ b, i = .mtc k b) ∨ ∃ n, i = .impMtc k n)
      (supervisor : s.supervisor = true) : Effect s i (s.setCreg k.idx v)
  | entry {i : Instr} (m : Word) (form : (∃ c, i = .swi c) ∨ ∃ a n, i = .impBrk a n) :
      Effect s i (raiseInterrupt .software m s)
  | leave (c : Nat) : Effect s (.ire c) (returnFromInterrupt (c != 0) s)
  | event (c : Nat) (supervisor : s.supervisor = true) : Effect s (.hwi c) (emitHwi (BitVec.ofNat 16 c) s)

/-! Data effects by what they write. -/

theorem DataEffect.of_registers {i : Instr} {s t : State}
    (h : t = { s with regs := t.regs, pc := t.pc, draws := t.draws }) : DataEffect i s t := by
  rw [h]
  exact ⟨rfl, rfl, rfl, rfl, rfl, rfl, rfl, rfl, rfl, rfl, fun _ => rfl, fun _ => rfl, id⟩

theorem DataEffect.of_ex {i : Instr} {s t : State} (computes : i.computesEx = true)
    (h : t = { s with regs := t.regs, ex := t.ex, draws := t.draws }) : DataEffect i s t := by
  rw [h]
  exact ⟨rfl, rfl, rfl, rfl, rfl, rfl, rfl, rfl, rfl, rfl, fun no => absurd computes (by simp [no]), fun _ => rfl,
    id⟩

/-- A store, after and before steps of pointers. -/
theorem DataEffect.of_store {i : Instr} {s t : State} (a v : Word) (stores : i.storesMemory = true)
    (h : t = { s.store a v with regs := t.regs }) : DataEffect i s t := by
  rw [h]
  exact ⟨rfl, rfl, rfl, rfl, rfl, rfl, rfl, rfl, rfl, rfl, fun _ => rfl, fun no => absurd stores (by simp [no]),
    wf_store s a v params⟩

theorem DataEffect.refl (i : Instr) (s : State) : DataEffect i s s := .of_registers rfl

theorem DataEffect.of_jumpIf {i : Instr} {s t : State} {taken : Bool} {off : Int}
    (h : jumpIf taken off s = .next t) : DataEffect i s t := by
  cases taken with
  | false =>
    obtain rfl := Host.Outcome.next.inj h
    exact .refl i s
  | true =>
    obtain rfl := Host.Outcome.next.inj h
    exact .of_registers rfl

theorem DataEffect.of_divInto {i : Instr} {s t : State} {a : Reg} {y : Word} (computes : i.computesEx = true)
    (h : divInto a y s = .next t) : DataEffect i s t := by
  obtain ⟨-, next⟩ | ⟨-, next⟩ := divInto_cases a y s params
  all_goals
    obtain rfl := Host.Outcome.next.inj (next.symm.trans h)
    exact .of_ex computes rfl

theorem DataEffect.of_dviInto {i : Instr} {s t : State} {a : Reg} {y : Word} (computes : i.computesEx = true)
    (h : dviInto a y s = .next t) : DataEffect i s t := by
  obtain ⟨-, next⟩ | ⟨-, next⟩ := dviInto_cases a y s params
  all_goals
    obtain rfl := Host.Outcome.next.inj (next.symm.trans h)
    exact .of_ex computes rfl

theorem DataEffect.of_execGbs {i : Instr} {s t : State} {a b : Reg} (h : execGbs a b s = .next t) :
    DataEffect i s t := by
  obtain ⟨-, next⟩ | ⟨-, next⟩ := execGbs_cases a b s
  all_goals
    obtain rfl := Host.Outcome.next.inj (next.symm.trans h)
    exact .of_registers rfl

theorem DataEffect.of_execMfc {i : Instr} {s t : State} {a : Reg} {k : CregSel} (h : execMfc a k s = .next t) :
    DataEffect i s t := by
  obtain rfl := Host.Outcome.next.inj h
  obtain ⟨mode, idx⟩ := k
  cases idx <;> exact .of_registers rfl

/-- What `mtc` and `imp mtc` share: a write in supervisor mode, nothing in user mode. -/
theorem Effect.of_moveToControl {i : Instr} {s t : State} {k : CregSel} {v : Word}
    (form : (∃ b, i = .mtc k b) ∨ ∃ n, i = .impMtc k n) (h : moveToControl k v s = .next t) : Effect s i t := by
  cases mode : s.supervisor with
  | true =>
    rw [moveToControl_supervisor k v s params mode] at h
    obtain rfl := Host.Outcome.next.inj h
    exact .control k _ form mode
  | false =>
    rw [moveToControl_user k v s params mode] at h
    obtain rfl := Host.Outcome.next.inj h
    have noEntry : i.entersInterrupt = false := by
      obtain ⟨b, rfl⟩ | ⟨n, rfl⟩ := form <;> rfl
    exact .data noEntry (.refl i s)

/-- The inversion of `exec`: what it can do, one case per kind of instruction. -/
theorem exec_effect {i : Instr} {s t : State} (h : exec i s = .next t) : Effect s i t := by
  cases i with
  | mtc k b => exact .of_moveToControl (.inl ⟨b, rfl⟩) h
  | impMtc k n => exact .of_moveToControl (.inr ⟨n, rfl⟩) h
  | swi c =>
    obtain rfl := Host.Outcome.next.inj h
    exact .entry _ (.inl ⟨c, rfl⟩)
  | impBrk a n =>
    obtain rfl := Host.Outcome.next.inj h
    exact .entry _ (.inr ⟨a, n, rfl⟩)
  | ire c =>
    obtain rfl := Host.Outcome.next.inj h
    exact .leave c
  | hwi c =>
    rw [exec_hwi] at h
    obtain rfl := Host.Outcome.next.inj h
    split
    · next supervisor => exact .event c supervisor
    · exact .data rfl (.refl _ s)
  | str a b | impStr a b =>
    obtain rfl := Host.Outcome.next.inj h
    exact .data rfl (.of_store _ _ rfl rfl)
  | psh a b | impPsh a b =>
    obtain rfl := Host.Outcome.next.inj h
    exact .data rfl (.of_store _ _ rfl rfl)
  | mom a b =>
    obtain rfl := Host.Outcome.next.inj h
    exact .data rfl (.of_store _ _ rfl rfl)
  | div a b | impDiv a b => exact .data rfl (.of_divInto rfl h)
  | dvi a b | impDvi a b => exact .data rfl (.of_dviInto rfl h)
  | gbs a b => exact .data rfl (.of_execGbs h)
  | mfc a k => exact .data rfl (.of_execMfc h)
  | jmp off | jlt off | jle off | jgt off | jge off | jeq off | jne off => exact .data rfl (.of_jumpIf h)
  | add a b | adx a b | sub a b | sbx a b | mul a b | mli a b | shl a b | asr a b | shr a b | tst a b | teq a b
  | cmp a b | cmn a b | impAdd a b | impAdx a b | impSub a b | impSbx a b | impMul a b | impMli a b | impShl a b
  | impAsr a b | impShr a b | impTst a b | impTeq a b | impCmp a b | impCmn a b =>
    obtain rfl := Host.Outcome.next.inj h
    exact .data rfl (.of_ex rfl rfl)
  | mov a b | loa a b | pop a b | srl a b | mod a b | mdi a b | inc a b | and a b | ior a b | xor a b | bic a b
  | rol a b | ror a b | impMov a b | impSrl a b | impMod a b | impMdi a b | impInc a b | impAnd a b | impIor a b
  | impXor a b | impBic a b | impRol a b | impRor a b =>
    obtain rfl := Host.Outcome.next.inj h
    exact .data rfl (.of_registers rfl)

/-! What no instruction changes. -/

theorem exec_instrCount {i : Instr} {s t : State} (h : exec i s = .next t) : t.instrCount = s.instrCount := by
  cases exec_effect h with
  | data _ effect => exact effect.count
  | control k v => exact setCreg_instrCount ..
  | entry | leave | event => rfl

theorem exec_reactions {i : Instr} {s t : State} (h : exec i s = .next t) : t.hwiReactions = s.hwiReactions := by
  cases exec_effect h with
  | data _ effect => exact effect.reactions
  | control k v => exact setCreg_hwiReactions ..
  | entry | leave | event => rfl

/-- Only `hwi` in supervisor mode emits an event (R282). -/
theorem exec_events_lt_iff {i : Instr} {s t : State} (h : exec i s = .next t) :
    s.hwiEvents.length < t.hwiEvents.length ↔ (∃ c, i = .hwi c) ∧ s.supervisor = true := by
  constructor
  case mp =>
    intro longer
    cases exec_effect h with
    | event c supervisor => exact ⟨⟨c, rfl⟩, supervisor⟩
    | data _ effect => exact absurd longer (by simp [effect.events])
    | control k v => exact absurd longer (by simp)
    | entry | leave => exact absurd longer (by simp)
  case mpr =>
    rintro ⟨⟨c, rfl⟩, supervisor⟩
    rw [exec_hwi, if_pos supervisor] at h
    obtain rfl := Host.Outcome.next.inj h
    simp

/-- Every other instruction leaves the history as it is. -/
theorem exec_events {i : Instr} {s t : State} (h : exec i s = .next t)
    (quiet : ¬ ((∃ c, i = .hwi c) ∧ s.supervisor = true)) : t.hwiEvents = s.hwiEvents := by
  cases exec_effect h with
  | event c supervisor => exact absurd ⟨⟨c, rfl⟩, supervisor⟩ quiet
  | data _ effect => exact effect.events
  | control k v => exact setCreg_hwiEvents ..
  | entry | leave => rfl

/-! The groups of R68, R38, R34 to R37 and R323. -/

/-- Settles O15: no effect but a store reaches memory. -/
theorem onlyStoringInstructionsChangeMemory : Obligations.OnlyStoringInstructionsChangeMemory := by
  intro i s t noStore h a
  have memory : t.mem = s.mem := by
    cases exec_effect h with
    | data _ effect => exact effect.memory noStore
    | control k v => exact setCreg_mem ..
    | entry | leave | event => rfl
  rw [memory]

/-- Settles O57: EX is left by data effects outside the list, and by the write of another control register. -/
theorem onlyListedInstructionsWriteEx : Obligations.OnlyListedInstructionsWriteEx := by
  intro i s t noEx mtc impMtc h
  cases exec_effect h with
  | data _ effect => exact effect.ex noEx
  | control k v form =>
    have other : k.idx ≠ .ex := by
      obtain ⟨b, rfl⟩ | ⟨n, rfl⟩ := form
      · exact mtc k b rfl
      · exact impMtc k n rfl
    exact setCreg_held_other s k.idx .ex v params other.symm
  | entry | leave | event => rfl

/-- Settles O58: FL is left by every effect but a control register write, interrupt entry and return, and
the last two keep bits 14 to 1. -/
theorem onlyListedInstructionsWriteFl : Obligations.OnlyListedInstructionsWriteFl := by
  intro i s t h
  cases exec_effect h with
  | data _ effect => exact ⟨fun _ => effect.fl, fun _ _ j _ _ => by rw [effect.fl]⟩
  | control k v form =>
    obtain ⟨b, rfl⟩ | ⟨n, rfl⟩ := form
    · exact ⟨nofun, fun mtc => absurd rfl (mtc k b)⟩
    · exact ⟨nofun, fun _ impMtc => absurd rfl (impMtc k n)⟩
  | entry m form =>
    refine ⟨?listed, fun _ _ j low high => ?bits⟩
    case listed => obtain ⟨c, rfl⟩ | ⟨a, n, rfl⟩ := form <;> exact nofun
    case bits =>
      have outside : ¬ (j = 15 ∨ j = 0) := by omega
      rw [raiseInterrupt_fl, getLsbD_entryFl_software _ (by omega), decide_eq_false outside, Bool.or_false]
  | leave c =>
    refine ⟨nofun, fun _ _ j low high => ?_⟩
    have outside : ¬ (j = 15 ∨ (j = 0 ∧ (c != 0) = true)) := by omega
    rw [returnFromInterrupt_fl, getLsbD_returnFl _ _ (by omega), decide_eq_false outside, Bool.not_false,
      Bool.and_true]
  | event => exact ⟨fun _ => rfl, fun _ _ _ _ _ => rfl⟩

/-- Settles O59: in user mode only interrupt entry sets S, and no effect writes IA. -/
theorem userModeLeavesOnlyThroughAnInterrupt : Obligations.UserModeLeavesOnlyThroughAnInterrupt := by
  intro i s t user h
  have notSupervisor : s.supervisor ≠ true := Bool.eq_false_iff.mp user
  cases exec_effect h with
  | data noEntry effect =>
    refine ⟨effect.ia, fun _ => ⟨?mode, effect.im, effect.ir⟩, fun entry => absurd entry (by simp [noEntry])⟩
    case mode => rw [State.supervisor, effect.fl]; exact user
  | control _ _ _ supervisor => exact absurd supervisor notSupervisor
  | entry m form =>
    refine ⟨rfl, fun noEntry => ?listed, fun _ => ⟨?mode, rfl⟩⟩
    case listed => obtain ⟨c, rfl⟩ | ⟨a, n, rfl⟩ := form <;> cases noEntry
    case mode =>
      rw [State.supervisor, raiseInterrupt_fl, getLsbD_entryFl_software _ (by decide)]
      exact Bool.or_true _
  | leave c =>
    refine ⟨rfl, fun _ => ⟨?mode, rfl, rfl⟩, nofun⟩
    case mode =>
      rw [State.supervisor, returnFromInterrupt_fl, getLsbD_returnFl _ _ (by decide)]
      change (s.supervisor && _) = false
      rw [user, Bool.false_and]
  | event _ supervisor => exact absurd supervisor notSupervisor

end Sys2Proof.Machine
end

section
/-! PROOFS, family 60_exceptions.md, section 3. An instruction that neither reads nor writes FL does the same
whatever FL is, and leaves it; the three that write it read it only to keep its bits (R321, D36). -/

namespace Sys2Proof.Machine

/-- The state with another FL. -/
def State.withFl (s : State) (fl : Word) : State := { s with fl := fl }

theorem jumpIf_withFl {taken : Bool} {off : Int} {s t : State} (fl : Word) (h : jumpIf taken off s = .next t) :
    jumpIf taken off (s.withFl fl) = .next (t.withFl fl) := by
  cases taken
  all_goals
    obtain rfl := Host.Outcome.next.inj h
    rfl

theorem divInto_withFl {a : Reg} {y : Word} {s t : State} (fl : Word) (h : divInto a y s = .next t) :
    divInto a y (s.withFl fl) = .next (t.withFl fl) := by
  obtain ⟨hy, next⟩ | ⟨hy, next⟩ := divInto_cases a y s params
  all_goals obtain rfl := Host.Outcome.next.inj (next.symm.trans h)
  · exact if_pos hy
  · exact if_neg hy

theorem dviInto_withFl {a : Reg} {y : Word} {s t : State} (fl : Word) (h : dviInto a y s = .next t) :
    dviInto a y (s.withFl fl) = .next (t.withFl fl) := by
  obtain ⟨hy, next⟩ | ⟨hy, next⟩ := dviInto_cases a y s params
  all_goals obtain rfl := Host.Outcome.next.inj (next.symm.trans h)
  · exact if_pos hy
  · exact if_neg hy

theorem execGbs_withFl {a b : Reg} {s t : State} (fl : Word) (h : execGbs a b s = .next t) :
    execGbs a b (s.withFl fl) = .next (t.withFl fl) := by
  obtain ⟨hb, next⟩ | ⟨hb, next⟩ := execGbs_cases a b s
  all_goals obtain rfl := Host.Outcome.next.inj (next.symm.trans h)
  · exact if_pos hb
  · exact if_neg hb

theorem execMfc_withFl {a : Reg} {k : CregSel} {s t : State} (fl : Word) (notFl : k.idx ≠ .fl)
    (h : execMfc a k s = .next t) : execMfc a k (s.withFl fl) = .next (t.withFl fl) := by
  obtain rfl := Host.Outcome.next.inj h
  obtain ⟨mode, idx⟩ := k
  cases idx with
  | fl => exact absurd rfl notFl
  | _ => rfl

/-- An instruction that supervisor mode does not gate and that neither reads nor writes FL does not depend on FL. -/
theorem exec_withFl {i : Instr} {s t : State} (fl : Word) (ungated : i.gated = false)
    (noFlWrite : i.mayWriteFl = false) (noFlRead : ∀ a k, i = .mfc a k → k.idx ≠ .fl) (h : exec i s = .next t) :
    exec i (s.withFl fl) = .next (t.withFl fl) := by
  cases i with
  | mtc | impMtc | hwi => cases ungated
  | swi | ire | impBrk => cases noFlWrite
  | mfc a k => exact execMfc_withFl fl (noFlRead a k rfl) h
  | div a b | impDiv a b => exact divInto_withFl fl h
  | dvi a b | impDvi a b => exact dviInto_withFl fl h
  | gbs a b => exact execGbs_withFl fl h
  | jmp off | jlt off | jle off | jgt off | jge off | jeq off | jne off => exact jumpIf_withFl fl h
  | _ =>
    obtain rfl := Host.Outcome.next.inj h
    rfl

/-- Two words that agree above bit 0 are the same with bit 0 set. -/
theorem or_one_eq_of_getLsbD {x y : Word} (h : ∀ j, 0 < j → j < 16 → x.getLsbD j = y.getLsbD j) :
    x ||| 0x0001#16 = y ||| 0x0001#16 := by
  apply BitVec.eq_of_getLsbD_eq
  intro j hj
  rw [BitVec.getLsbD_or, BitVec.getLsbD_or]
  obtain rfl | positive := Nat.eq_zero_or_pos j
  · exact (Bool.or_true _).trans (Bool.or_true _).symm
  · rw [h j positive hj]

/-- Flipping S reaches bit 0 alone. -/
theorem getLsbD_xor_one (fl : Word) {j : Nat} (positive : 0 < j) (hj : j < 16) :
    (fl ^^^ 0x0001#16).getLsbD j = fl.getLsbD j := by
  change (fl ^^^ flS).getLsbD j = _
  rw [BitVec.getLsbD_xor, getLsbD_flS hj, decide_eq_false (by omega), Bool.xor_false]

theorem withFl_held (t : State) (fl : Word) {c : Creg} (hc : c ≠ .fl) : (t.withFl fl).held c = t.held c := by
  cases c with
  | fl => exact absurd rfl hc
  | _ => rfl

/-- Replacing FL by one that agrees above bit 0 is a change of the mode alone. -/
theorem withFl_agrees {t : State} {fl : Word} (above : ∀ j, 0 < j → j < 16 → fl.getLsbD j = t.fl.getLsbD j) :
    (∀ r, (t.withFl fl).reg r = t.reg r) ∧ (t.withFl fl).mem = t.mem ∧
      (∀ c, c ≠ .fl → (t.withFl fl).held c = t.held c) ∧ (t.withFl fl).fl ||| 0x0001#16 = t.fl ||| 0x0001#16 ∧
      (t.withFl fl).hwiEvents = t.hwiEvents ∧ (t.withFl fl).draws = t.draws ∧
      (t.withFl fl).requests = t.requests ∧ (t.withFl fl).hwiReactions = t.hwiReactions ∧
      (t.withFl fl).instrCount = t.instrCount :=
  ⟨fun _ => rfl, rfl, fun _ hc => withFl_held t fl hc, or_one_eq_of_getLsbD above, rfl, rfl, rfl, rfl, rfl⟩

theorem raiseInterrupt_withFl (kind : IntKind) (m fl : Word) (s : State) :
    raiseInterrupt kind m (s.withFl fl) = (raiseInterrupt kind m s).withFl (entryFl kind fl) := rfl

theorem returnFromInterrupt_withFl (toUser : Bool) (fl : Word) (s : State) :
    returnFromInterrupt toUser (s.withFl fl) = (returnFromInterrupt toUser s).withFl (returnFl toUser fl) := rfl

/-- Settles O21: FL passes through the data instructions untouched, and entry and return keep its bits above 0. -/
theorem otherInstructionsIgnoreTheMode : Obligations.OtherInstructionsIgnoreTheMode := by
  intro i s t ungated noFlRead h
  have flipped (j : Nat) (positive : 0 < j) (hj : j < 16) : (s.fl ^^^ 0x0001#16).getLsbD j = s.fl.getLsbD j :=
    getLsbD_xor_one s.fl positive hj
  change Completes (exec i (s.withFl (s.fl ^^^ 0x0001#16))) _
  cases flWrite : i.mayWriteFl with
  | false =>
    have kept : t.fl = s.fl := (onlyListedInstructionsWriteFl i s t h).1 flWrite
    refine ⟨_, exec_withFl _ ungated flWrite noFlRead h, withFl_agrees ?_⟩
    rw [kept]
    exact flipped
  | true =>
    cases i with
    | mtc | impMtc => cases ungated
    | swi c | impBrk a n =>
      obtain rfl := Host.Outcome.next.inj h
      refine ⟨_, congrArg Host.Outcome.next (raiseInterrupt_withFl _ _ _ s), withFl_agrees fun j positive hj => ?_⟩
      rw [raiseInterrupt_fl]
      exact (getLsbD_entryFl_software _ hj).trans
        ((congrArg (· || _) (flipped j positive hj)).trans (getLsbD_entryFl_software _ hj).symm)
    | ire c =>
      obtain rfl := Host.Outcome.next.inj h
      refine ⟨_, congrArg Host.Outcome.next (returnFromInterrupt_withFl _ _ s), withFl_agrees fun j positive hj => ?_⟩
      rw [returnFromInterrupt_fl, getLsbD_returnFl _ _ hj, getLsbD_returnFl _ _ hj, flipped j positive hj]
    | _ => cases flWrite

end Sys2Proof.Machine
end

section
/-! PROOFS, families 30_encoding.md section 1 and 60_exceptions.md sections 1 and 2, the step (R301). A step
takes a request, or stops at a code without a row, or runs the decoded instruction and the reaction to it. -/

namespace Sys2Proof

/-- Only IMP reads a second word (R95). -/
theorem decode_second_irrelevant {w : Word} (hw : opcodeOf w ≠ 0) (n m : Word) : decode w n = decode w m := by
  rw [decode, decode, if_neg hw, if_neg hw]

end Sys2Proof

namespace Sys2Proof.Machine

/-! The three outcomes of a step, under any configuration whose platform map is empty. -/

theorem stepWith_of_request (p : Config) {s : State} {m : Word} (request : acceptedRequest s = some m) :
    stepWith p s = .next (raiseInterrupt .hardware m (consumeRequest s)) := by
  simp only [stepWith, stepOf, request]

theorem stepWith_of_reject {p : Config} {s : State} {e : DecodeReject} (map : p.platformMap = [])
    (noRequest : acceptedRequest s = none)
    (reject : decode (fetch (consumeRequest s) p).first (fetch (consumeRequest s) p).second = .error e) :
    stepWith p s = unassignedStop p.unassignedOp (s.load s.pc p) := by
  simp only [stepWith, stepOf, noRequest, map, firstRegion_nil, reject]
  exact congrArg (unassignedStop p.unassignedOp) (fetch_first (consumeRequest s) p)

theorem stepWith_of_decode {p : Config} {s : State} {i : Instr} (map : p.platformMap = [])
    (noRequest : acceptedRequest s = none)
    (decoded : decode (fetch (consumeRequest s) p).first (fetch (consumeRequest s) p).second = .ok i) :
    stepWith p s =
      afterExec (fetch (consumeRequest s) p).state (execWith p i (fetch (consumeRequest s) p).state) p := by
  simp only [stepWith, stepOf, noRequest, map, firstRegion_nil, decoded]

/-! The fetch. -/

/-- Reading the second word always, or only where the first asks for it, decodes alike. -/
theorem decode_fetch (s : State) (p : Config) :
    decode (fetch s p).first (fetch s p).second = decode (s.load s.pc p) (s.load (s.pc + 1#16) p) := by
  by_cases imp : opcodeOf (s.load s.pc p) = 0
  · rw [fetch_two s p imp]
  · rw [fetch_one s p imp]
    exact decode_second_irrelevant imp _ _

theorem decode_fetch_consumeRequest (s : State) (p : Config) :
    decode (fetch (consumeRequest s) p).first (fetch (consumeRequest s) p).second =
      decode (s.load s.pc p) (s.load (s.pc + 1#16) p) := decode_fetch (consumeRequest s) p

@[simp] theorem fetch_fl (s : State) (p : Config) : (fetch s p).state.fl = s.fl := by
  unfold fetch
  split <;> rfl

/-- The state of a fetch: PC past the instruction's words, and one more instruction counted. -/
theorem fetch_state_of_decode {s : State} {i : Instr} (decoded : decode (s.load s.pc) (s.load (s.pc + 1#16)) = .ok i) :
    (fetch s).state =
      { s with pc := s.pc + BitVec.ofNat 16 (encode i).length, instrCount := s.instrCount + 1 } := by
  rw [encode_of_decode decoded]
  by_cases imp : opcodeOf (s.load s.pc) = 0
  · rw [fetch_two s params imp, if_pos imp]
    change { s with pc := s.pc + 1#16 + 1#16, instrCount := s.instrCount + 1 } = _
    rw [BitVec.add_assoc]
    rfl
  · rw [fetch_one s params imp, if_neg imp]
    rfl

/-! Requests. -/

theorem acceptedRequest_of_ignoring {s : State} (ignoring : s.ignoring = true) : acceptedRequest s = none :=
  if_pos ignoring

theorem acceptedRequest_of_requests {s : State} {r : Option Word} {later : List (Option Word)}
    (enabled : s.ignoring = false) (presented : s.requests = r :: later) : acceptedRequest s = r := by
  rw [acceptedRequest, enabled, presentedRequest, presented]
  rfl

/-- Settles O50: the step is interrupt entry on the state whose request is used up. -/
theorem hardwareInterruptIsTakenBetweenInstructions : Obligations.HardwareInterruptIsTakenBetweenInstructions := by
  intro m later s presented enabled
  have accepted : acceptedRequest s = some m := acceptedRequest_of_requests enabled presented
  have entered : step s = .next (raiseInterrupt .hardware m (consumeRequest s)) :=
    (stepWith_params s).symm.trans (stepWith_of_request params accepted)
  have usedUp : s.requests.tail = later := by rw [presented, List.tail_cons]
  exact ⟨_, entered, rfl, rfl, rfl, usedUp, fun _ hj => getLsbD_entryFl_hardware s.fl hj, fun _ => rfl, rfl, rfl, rfl,
    rfl, rfl, rfl, rfl, rfl, rfl⟩

/-! After the instruction. -/

/-- The platform's reaction to an event does not count instructions. -/
theorem platformReact_instrCount {s t : State} (h : platformReact s = some t) : t.instrCount = s.instrCount := by
  obtain ⟨-, rfl⟩ | ⟨acts, later, -, acted⟩ := platformReact_cases s t params h
  · rfl
  · exact performActs_keeps (P := fun u => u.instrCount = s.instrCount) (fun _ _ _ hu => hu)
      (fun u c v hu => (setCreg_instrCount u c v params).trans hu) (fun _ _ _ hu => hu) (fun _ _ hu => hu)
      acts { s with hwiReactions := later } t rfl acted

theorem step_instrCount_of_no_request {s t : State} (noRequest : acceptedRequest s = none)
    (h : step s = .next t) : t.instrCount = s.instrCount + 1 := by
  obtain ⟨m, accepted, -⟩ | ⟨-, i, u, -, executed, rest⟩ := step_cases s t h
  · exact absurd (noRequest.symm.trans accepted) nofun
  · have counted : u.instrCount = s.instrCount + 1 := (exec_instrCount executed).trans (fetch_count ..)
    obtain rfl | ⟨-, reaction⟩ := rest
    · exact counted
    · exact (platformReact_instrCount reaction).trans counted

/-- A step that accepts no request is the same step whatever request is presented. -/
theorem step_congr_of_no_request {s s' : State} (hs : acceptedRequest s = none) (hs' : acceptedRequest s' = none)
    (same : consumeRequest s = consumeRequest s') : step s = step s' := by
  unfold step stepOf
  rw [hs, hs', same]

/-- Settles O51: a masked request is not accepted, and is used up like any other entry. -/
theorem maskedRequestIsIgnored : Obligations.MaskedRequestIsIgnored := by
  intro r later s presented masked
  have noRequest : acceptedRequest s = none := acceptedRequest_of_ignoring masked
  refine ⟨step_congr_of_no_request noRequest (acceptedRequest_of_ignoring masked) ?same,
    fun t h => step_instrCount_of_no_request noRequest h⟩
  case same =>
    rw [consumeRequest, presented]
    rfl

/-- Where the script has no reaction left, none happens (D30). -/
theorem afterExec_of_no_reactions {s t : State} (none_left : t.hwiReactions = []) :
    afterExec s (.next t) = .next t := by
  have react : platformReact t = some t := by rw [platformReact, none_left]
  simp only [afterExec, react, ite_self]

/-- Settles O52: the fetch's state written out. -/
theorem stepRunsTheDecodedInstruction : Obligations.StepRunsTheDecodedInstruction := by
  intro i s noRequest decoded
  have ran := stepWith_of_decode (p := params) rfl noRequest ((decode_fetch_consumeRequest s params).trans decoded)
  rw [stepWith_params, execWith_params, fetch_state_of_decode (s := consumeRequest s) decoded] at ran
  refine ⟨ran, fun noReactions => ran.trans ?_⟩
  obtain ⟨t, executed⟩ := exec_next i { consumeRequest s with
    pc := (consumeRequest s).pc + BitVec.ofNat 16 (encode i).length, instrCount := (consumeRequest s).instrCount + 1 }
  rw [executed]
  exact (afterExec_of_no_reactions ((exec_reactions executed).trans noReactions)).trans executed.symm

/-! How a step stops (R105, R283). -/

/-- After an instruction the machine goes on, or the reaction to its event stops it. -/
theorem afterExec_next_cases (s t : State) (p : Config) :
    (∃ u, afterExec s (.next t) p = .next u ∧
        ¬ (s.hwiEvents.length < t.hwiEvents.length ∧ platformReact t p = none)) ∨
      (afterExec s (.next t) p = .fault .platformStop ∧
        s.hwiEvents.length < t.hwiEvents.length ∧ platformReact t p = none) := by
  by_cases emitted : s.hwiEvents.length < t.hwiEvents.length
  · cases react : platformReact t p with
    | none => exact .inr ⟨by simp [afterExec, emitted, react], emitted, rfl⟩
    | some u => exact .inl ⟨u, by simp [afterExec, emitted, react], by simp⟩
  · exact .inl ⟨t, by simp [afterExec, emitted], fun h => emitted h.1⟩

/-- Where the words at PC decode, the step goes on, or stops by the script after an `hwi` in supervisor mode. -/
theorem step_of_decode_cases {s : State} {i : Instr} (noRequest : acceptedRequest s = none)
    (decoded : decode (s.load s.pc) (s.load (s.pc + 1#16)) = .ok i) :
    (∃ u, step s = .next u ∧ ¬ (((∃ c, i = .hwi c) ∧ s.supervisor = true) ∧
        ∃ acts later, s.hwiReactions = acts :: later ∧ .stop ∈ acts)) ∨
      (step s = .fault .platformStop ∧ ((∃ c, i = .hwi c) ∧ s.supervisor = true) ∧
        ∃ acts later, s.hwiReactions = acts :: later ∧ .stop ∈ acts) := by
  have ran := stepWith_of_decode (p := params) rfl noRequest ((decode_fetch_consumeRequest s params).trans decoded)
  obtain ⟨t, executed⟩ := exec_next i (fetch (consumeRequest s)).state
  rw [stepWith_params, execWith_params, executed] at ran
  have mode : (fetch (consumeRequest s)).state.supervisor = s.supervisor := by
    rw [State.supervisor, fetch_fl]
    rfl
  have emits := exec_events_lt_iff executed
  have stops := platformReact_none_iff t params
  have script : t.hwiReactions = s.hwiReactions := (exec_reactions executed).trans (fetch_reactions ..)
  rw [mode] at emits
  rw [script] at stops
  rw [ran, ← emits, ← stops]
  exact afterExec_next_cases _ t params

theorem step_of_request {s : State} {m : Word} (request : acceptedRequest s = some m) : ∃ t, step s = .next t :=
  ⟨_, (stepWith_params s).symm.trans (stepWith_of_request params request)⟩

theorem step_of_reject {s : State} {e : DecodeReject} (noRequest : acceptedRequest s = none)
    (reject : decode (s.load s.pc) (s.load (s.pc + 1#16)) = .error e) :
    step s = .fault (.unassignedOpcode (s.load s.pc)) :=
  (stepWith_params s).symm.trans
    (stepWith_of_reject (p := params) rfl noRequest ((decode_fetch_consumeRequest s params).trans reject))

/-- Settles O53: the outcomes of a step, by whether a request is accepted and whether the words at PC decode. -/
theorem stepStopsOnlyOnUnassignedCodesOrScriptedStops : Obligations.StepStopsOnlyOnUnassignedCodesOrScriptedStops := by
  intro s
  cases request : acceptedRequest s with
  | some m =>
    obtain ⟨t, next⟩ := step_of_request request
    simp [next]
  | none =>
    cases decoded : decode (s.load s.pc) (s.load (s.pc + 1#16)) with
    | error e =>
      rw [step_of_reject request decoded]
      refine ⟨nofun, fun w => ⟨?named, ?atPc⟩, iff_of_false nofun ?_⟩
      case named =>
        intro stopped
        cases stopped
        exact ⟨rfl, rfl, e, rfl⟩
      case atPc =>
        rintro ⟨-, rfl, -⟩
        rfl
      · rintro ⟨-, -, ⟨c, hwi⟩, -⟩
        cases hwi
    | ok i =>
      obtain ⟨u, next, goesOn⟩ | ⟨stopped, ⟨hwi, supervisor⟩, script⟩ := step_of_decode_cases request decoded
      · refine ⟨by simp [next], by simp [next], ?_⟩
        rw [next]
        refine iff_of_false nofun ?_
        rintro ⟨-, supervisor, ⟨c, hwi⟩, script⟩
        exact goesOn ⟨⟨⟨c, Except.ok.inj hwi⟩, supervisor⟩, script⟩
      · refine ⟨by simp [stopped], by simp [stopped], ?_⟩
        obtain ⟨c, rfl⟩ := hwi
        exact iff_of_true stopped ⟨rfl, supervisor, ⟨c, rfl⟩, script⟩

/-! The invariant (O54). -/

/-- The invariant speaks of memory, events and the count of instructions alone. -/
theorem Inv.of_same {s t : State} (inv : Inv s) (memory : t.mem = s.mem) (events : t.hwiEvents = s.hwiEvents)
    (count : t.instrCount = s.instrCount) : Inv t where
  memory := memory ▸ inv.memory
  messages := events ▸ inv.messages
  order := events ▸ inv.order
  bounded := events ▸ count ▸ inv.bounded

/-- What holds between the fetch and the instruction: the coming position is past every event's. -/
structure Fetching (s : State) : Prop where
  memory   : s.mem.wf = true
  messages : ∀ e ∈ s.hwiEvents, e.message.toNat < 1024
  order    : s.hwiEvents.Pairwise (fun e f => e.position < f.position)
  fresh    : ∀ e ∈ s.hwiEvents, e.position < s.instrCount

theorem Inv.fetching {s : State} (inv : Inv s) : Fetching (fetch (consumeRequest s)).state where
  memory := by
    rw [fetch_mem]
    exact inv.memory
  messages := by
    rw [fetch_events]
    exact inv.messages
  order := by
    rw [fetch_events]
    exact inv.order
  fresh := by
    rw [fetch_events, fetch_count]
    exact fun e he => Nat.lt_succ_of_le (inv.bounded e he)

theorem Fetching.inv {s : State} (h : Fetching s) : Inv s where
  memory := h.memory
  messages := h.messages
  order := h.order
  bounded e he := (h.fresh e he).le

/-- An event emitted after the fetch stands past the others and carries ten bits. -/
theorem Fetching.emitHwi {s : State} (h : Fetching s) {m : Word} (tenBits : m.toNat < 1024) :
    Inv (emitHwi m s) where
  memory := h.memory
  messages e he := by
    obtain old | rfl := List.mem_append.mp he |>.imp_right List.mem_singleton.mp
    · exact h.messages e old
    · exact tenBits
  order := by
    rw [emitHwi_hwiEvents, List.pairwise_append]
    refine ⟨h.order, List.pairwise_singleton _ _, fun e he f hf => ?_⟩
    rw [List.mem_singleton.mp hf]
    exact h.fresh e he
  bounded e he := by
    obtain old | rfl := List.mem_append.mp he |>.imp_right List.mem_singleton.mp
    · exact (h.fresh e old).le
    · exact Nat.le_refl _

/-- A decoded instruction run after its fetch re-establishes the invariant. -/
theorem Fetching.exec_inv {i : Instr} {s t : State} (h : Fetching s) (wf : i.wellFormed = true)
    (executed : exec i s = .next t) : Inv t := by
  cases exec_effect executed with
  | data _ effect =>
    exact { memory := effect.canonical h.memory
            messages := effect.events ▸ h.messages
            order := effect.events ▸ h.order
            bounded := effect.events ▸ effect.count ▸ h.inv.bounded }
  | control k v => exact h.inv.of_same (setCreg_mem ..) (setCreg_hwiEvents ..) (setCreg_instrCount ..)
  | entry | leave => exact h.inv.of_same rfl rfl rfl
  | event c =>
    have message : c < 1024 := msg_lt wf
    refine h.emitHwi ?_
    rw [BitVec.toNat_ofNat]
    omega

/-- No act of a reaction emits an event, and every store keeps memory canonical. -/
theorem Inv.platformReact {s t : State} (inv : Inv s) (h : platformReact s = some t) : Inv t := by
  obtain ⟨-, rfl⟩ | ⟨acts, later, -, acted⟩ := platformReact_cases s t params h
  · exact inv
  · exact performActs_keeps (P := Inv) (fun _ _ _ hu => hu.of_same rfl rfl rfl)
      (fun _ _ _ hu => hu.of_same (setCreg_mem ..) (setCreg_hwiEvents ..) (setCreg_instrCount ..))
      (fun u a v hu => ⟨wf_store u a v params hu.memory, hu.messages, hu.order, hu.bounded⟩)
      (fun _ _ hu => hu.of_same rfl rfl rfl) acts { s with hwiReactions := later } t
      (inv.of_same rfl rfl rfl) acted

/-- Settles O54: interrupt entry, the instruction after its fetch, and the reaction each keep the invariant. -/
theorem stepKeepsMachineInvariant : Obligations.StepKeepsMachineInvariant := by
  intro s t inv h
  obtain ⟨m, -, rfl⟩ | ⟨-, i, u, decoded, executed, rest⟩ := step_cases s t h
  · exact inv.of_same rfl rfl rfl
  · have afterInstr : Inv u := inv.fetching.exec_inv (wellFormed_of_decode decoded) executed
    obtain rfl | ⟨-, reaction⟩ := rest
    · exact afterInstr
    · exact afterInstr.platformReact reaction

end Sys2Proof.Machine
end

section
/-! PROOFS, family 00_scope.md section 4: which parameter an instruction can feel. Each shared operation takes
its parameters' defaults where `cautious` rules the other readings out; the octet order and EX after a
division by zero are kept by hypothesis. -/

namespace Sys2Proof.Machine

/-! `OCTET_ORDER`: memory accesses and the fetch. -/

section
variable {p : Config} (order : p.octetOrder = params.octetOrder)
include order

theorem load_of_order (s : State) (a : Word) : s.load a p = s.load a := by
  rw [State.load, State.load, order]

theorem store_of_order (s : State) (a v : Word) : s.store a v p = s.store a v := by
  rw [State.store, State.store, order]

theorem fetch_of_order (s : State) : fetch s p = fetch s := by
  unfold fetch
  rw [load_of_order order, load_of_order order]

end

/-! `EX_ADDEND_EXT`: the two readings of EX agree below 0x8000 (U16). -/

theorem exAddend_of_lt (e : Extension) {ex : Word} (small : ex.toNat < 0x8000) :
    exAddend e ex = exAddend .zero ex := by
  cases e with
  | zero => rfl
  | sign =>
    have agree := exAddend_zero_eq ex
    rw [if_neg (by omega)] at agree
    omega

theorem adxInto_of_lt (a : Reg) (y : Word) {s : State} (p : Config) (small : s.ex.toNat < 0x8000) :
    adxInto a y s p = adxInto a y s := by
  rw [adxInto, adxInto, adx32, adx32, exAddend_of_lt _ small, exAddend_of_lt params.exAddendExt small]

theorem sbxInto_of_lt (a : Reg) (y : Word) {s : State} (p : Config) (small : s.ex.toNat < 0x8000) :
    sbxInto a y s p = sbxInto a y s := by
  rw [sbxInto, sbxInto, sbx32, sbx32, exAddend_of_lt _ small, exAddend_of_lt params.exAddendExt small]

/-! `DIV0_EX`, `DVI_ROUND` and `MDI_SIGN`: roundings agree on non-negative operands and exact quotients (U12). -/

theorem divByZero_of_divZeroEx {p : Config} (free : p.divZeroEx = params.divZeroEx) (a : Reg) (s : State) :
    divByZero a s p = divByZero a s := by
  rw [divByZero, divByZero, free]

theorem divInto_of_divZeroEx {p : Config} (free : p.divZeroEx = params.divZeroEx) (a : Reg) (y : Word) (s : State) :
    divInto a y s p = divInto a y s := by
  rw [divInto, divInto, divByZero_of_divZeroEx free]

/-- The operands on which rounding toward zero and toward minus infinity are one division. -/
theorem exactOrNonNegative_cases {x y : Word} (nonzero : y ≠ 0#16) (h : exactOrNonNegative x y = true) :
    (0 ≤ x.toInt ∧ 0 ≤ y.toInt) ∨ y.toInt ∣ x.toInt := by
  simpa [exactOrNonNegative, nonzero] using h

theorem fdiv_eq_tdiv_of_exactOrNonNegative {x y : Word} (nonzero : y ≠ 0#16) (h : exactOrNonNegative x y = true)
    {scale : Int} (positive : 0 ≤ scale) :
    (x.toInt * scale).fdiv y.toInt = (x.toInt * scale).tdiv y.toInt := by
  obtain ⟨hx, hy⟩ | exact_quotient := exactOrNonNegative_cases nonzero h
  · rw [Int.fdiv_eq_tdiv_of_nonneg (Int.mul_nonneg hx positive) hy]
  · have divides : y.toInt ∣ x.toInt * scale := Int.dvd_mul_of_dvd_left exact_quotient
    rw [Int.fdiv_eq_ediv_of_dvd divides, Int.tdiv_eq_ediv_of_dvd divides]

theorem dvi32_of_exactOrNonNegative (r : QuotientRounding) {x y : Word} (nonzero : y ≠ 0#16)
    (h : exactOrNonNegative x y = true) : dvi32 r x y = dvi32 .towardZero x y := by
  cases r with
  | towardZero => rfl
  | floor => rw [dvi32, dvi32, fdiv_eq_tdiv_of_exactOrNonNegative nonzero h (by decide)]

theorem dviInto_of_exactOrNonNegative {p : Config} (free : p.divZeroEx = params.divZeroEx) (a : Reg) (y : Word)
    {s : State} (h : exactOrNonNegative (s.reg a) y = true) : dviInto a y s p = dviInto a y s := by
  rw [dviInto, dviInto, divByZero_of_divZeroEx free]
  split
  · rfl
  · next nonzero => rw [dvi32_of_exactOrNonNegative _ nonzero h]; rfl

theorem mdi16_of_exactOrNonNegative (r : RemainderSign) {x y : Word} (nonzero : y ≠ 0#16)
    (h : exactOrNonNegative x y = true) : mdi16 r x y = mdi16 .dividend x y := by
  have quotient := fdiv_eq_tdiv_of_exactOrNonNegative nonzero h (scale := 1) (by decide)
  rw [Int.mul_one] at quotient
  cases r with
  | dividend => rfl
  | divisor => simp only [mdi16, quotient]

theorem mdiInto_of_exactOrNonNegative (a : Reg) (y : Word) {s : State} (p : Config)
    (h : (exactOrNonNegative (s.reg a) y && decide (y ≠ 0#16)) = true) : mdiInto a y s p = mdiInto a y s := by
  obtain ⟨exact_quotient, nonzero⟩ := Bool.and_eq_true_iff.mp h
  rw [mdiInto, mdiInto, mdi16_of_exactOrNonNegative _ (of_decide_eq_true nonzero) exact_quotient]
  rfl

/-! `SHIFT_COUNT` and `ROT_COUNT`: a count below 16 is itself. -/

theorem shiftAmount_of_lt (c : ShiftCount) {y : Word} (small : y.toNat < 16) : shiftAmount c y = y.toNat := by
  cases c with
  | full => rfl
  | low5 => exact Nat.mod_eq_of_lt (by omega)
  | low4 => exact Nat.mod_eq_of_lt small

theorem rotateAmount_of_lt {y : Word} (p : Config) (small : y.toNat < 16) : rotateAmount y p = y.toNat := if_pos small

section
variable {y : Word} (small : y.toNat < 16)
include small

theorem shlInto_of_lt (a : Reg) (s : State) (p : Config) : shlInto a y s p = shlInto a y s := by
  rw [shlInto, shlInto, shiftAmount_of_lt _ small, shiftAmount_of_lt params.shiftCount small]

theorem asrInto_of_lt (a : Reg) (s : State) (p : Config) : asrInto a y s p = asrInto a y s := by
  rw [asrInto, asrInto, shiftAmount_of_lt _ small, shiftAmount_of_lt params.shiftCount small]

theorem shrInto_of_lt (a : Reg) (s : State) (p : Config) : shrInto a y s p = shrInto a y s := by
  rw [shrInto, shrInto, shiftAmount_of_lt _ small, shiftAmount_of_lt params.shiftCount small]

theorem rolInto_of_lt (a : Reg) (s : State) (p : Config) : rolInto a y s p = rolInto a y s := by
  rw [rolInto, rolInto, rotateAmount_of_lt p small, rotateAmount_of_lt params small]

theorem rorInto_of_lt (a : Reg) (s : State) (p : Config) : rorInto a y s p = rorInto a y s := by
  rw [rorInto, rorInto, rotateAmount_of_lt p small, rotateAmount_of_lt params small]

end

/-! `UNA_MSG_EXT`, `FL_RESERVED` and `CREG_RESERVED`. -/

/-- A message whose upper bit of ten is clear is the same word under either widening (U21). -/
theorem messageOf_of_lt (e : Extension) {c : Nat} (small : c < 0x200) : messageOf e c = messageOf .zero c := by
  cases e with
  | zero => rfl
  | sign =>
    have positive : (BitVec.ofNat 10 c).msb = false := by
      rw [BitVec.msb_eq_false_iff_two_mul_lt, BitVec.toNat_ofNat]
      omega
    apply BitVec.eq_of_toNat_eq
    rw [messageOf, messageOf, BitVec.signExtend_eq_setWidth_of_msb_false positive, BitVec.toNat_setWidth,
      BitVec.toNat_ofNat, BitVec.toNat_ofNat]
    omega

/-- A word with bits 13 to 1 clear is written whole under either treatment (U5). -/
theorem flWritten_of_clear (r : FlReserved) {v : Word} (clear : v &&& 0x3ffe#16 = 0#16) : flWritten r v = v := by
  cases r with
  | storage => rfl
  | readZero =>
    have halves : v &&& 0xc001#16 ||| v &&& 0x3ffe#16 = v := by
      rw [← BitVec.and_or_distrib_left]
      exact BitVec.and_allOnes
    rw [clear] at halves
    exact (BitVec.or_zero).symm.trans halves

theorem setCreg_of_clear {s : State} {c : Creg} {v : Word} (p : Config)
    (h : c ≠ .fl ∨ v &&& 0x3ffe#16 = 0#16) : s.setCreg c v p = s.setCreg c v := by
  cases c with
  | fl =>
    have clear := h.resolve_left (absurd rfl)
    rw [State.setCreg, State.setCreg, flWritten_of_clear _ clear, flWritten_of_clear params.flReserved clear]
  | _ => rfl

theorem moveToControl_of_controlWriteOk {k : CregSel} {src : Word} {s : State} (p : Config)
    (h : controlWriteOk k src s = true) : moveToControl k src s p = moveToControl k src s := by
  cases mode : s.supervisor with
  | false => rw [moveToControl_user k src s p mode, moveToControl_user k src s params mode]
  | true =>
    have clear : k.idx ≠ .fl ∨ modeApply k.mode s.fl src &&& 0x3ffe#16 = 0#16 := by
      simp only [controlWriteOk, mode, Bool.not_true, Bool.false_or, Bool.and_eq_true, Bool.or_eq_true,
        decide_eq_true_iff] at h
      exact h.2
    have write : k.idx ≠ .fl ∨ modeApply k.mode (s.held k.idx) src &&& 0x3ffe#16 = 0#16 := by
      by_cases isFl : k.idx = .fl
      · rw [isFl]
        exact .inr (clear.resolve_left (absurd isFl))
      · exact .inl isFl
    rw [moveToControl_supervisor k src s p mode, moveToControl_supervisor k src s params mode,
      setCreg_of_clear p write]

theorem readCreg_of_defined {s : State} {c : Creg} (p : Config)
    (h : (decide (c ≠ .c2) && decide (c ≠ .c3)) = true) : s.readCreg c p = s.readCreg c := by
  cases c with
  | c2 | c3 => cases h
  | _ => rfl

/-! The instruction, and the step. -/

/-- A cautious instruction means the same under every configuration that keeps the two named parameters. -/
theorem execWith_of_cautious {p : Config} (order : p.octetOrder = params.octetOrder)
    (free : p.divZeroEx = params.divZeroEx) {i : Instr} {s : State} (h : cautious i s = true) :
    execWith p i s = exec i s := by
  cases i with
  | str a b | impStr a b => exact congrArg Host.Outcome.next (store_of_order order s _ _)
  | psh a b | impPsh a b => exact congrArg Host.Outcome.next (store_of_order order _ _ _)
  | loa a b => exact congrArg (fun v => Host.Outcome.next (s.setReg a v)) (load_of_order order s _)
  | pop a b => exact congrArg (fun v => Host.Outcome.next (stepPointer b (s.setReg a v))) (load_of_order order s _)
  | mom a b =>
    rw [execWith, execMom, load_of_order order, store_of_order order]
    rfl
  | adx a b | impAdx a b => exact adxInto_of_lt a _ p (of_decide_eq_true h)
  | sbx a b | impSbx a b => exact sbxInto_of_lt a _ p (of_decide_eq_true h)
  | div a b | impDiv a b => exact divInto_of_divZeroEx free a _ s
  | dvi a b | impDvi a b => exact dviInto_of_exactOrNonNegative free a _ h
  | mdi a b | impMdi a b => exact mdiInto_of_exactOrNonNegative a _ p h
  | gbs a b => cases h
  | shl a b | impShl a b => exact shlInto_of_lt (of_decide_eq_true h) a s p
  | asr a b | impAsr a b => exact asrInto_of_lt (of_decide_eq_true h) a s p
  | shr a b | impShr a b => exact shrInto_of_lt (of_decide_eq_true h) a s p
  | rol a b | impRol a b => exact rolInto_of_lt (of_decide_eq_true h) a s p
  | ror a b | impRor a b => exact rorInto_of_lt (of_decide_eq_true h) a s p
  | mtc k b | impMtc k n => exact moveToControl_of_controlWriteOk p h
  | mfc a k =>
    rw [execWith, execMfc, readCreg_of_defined p h]
    rfl
  | swi c =>
    exact congrArg (fun m => Host.Outcome.next (raiseInterrupt .software m s)) (messageOf_of_lt _ (of_decide_eq_true h))
  | hwi c =>
    have user : s.supervisor = false := by
      rw [cautious, Bool.and_eq_true, Bool.not_eq_true'] at h
      exact h.2
    rw [exec_hwi, execWith, execHwi, user]
    rfl
  | _ => rfl

/-- A cautious instruction emits no event, so no reaction follows it. -/
theorem afterExec_of_cautious (p : Config) {i : Instr} {s : State} (h : cautious i s = true) :
    afterExec s (exec i s) p = afterExec s (exec i s) := by
  obtain ⟨t, executed⟩ := exec_next i s
  have quiet : t.hwiEvents = s.hwiEvents := by
    refine exec_events executed ?_
    rintro ⟨⟨c, rfl⟩, supervisor⟩
    rw [cautious, supervisor, Bool.not_true, Bool.and_false] at h
    cases h
  rw [executed, afterExec_quiet s t p quiet, afterExec_quiet s t params quiet]

/-- Settles O60: the instruction by its operation's parameters, the step by its three outcomes. -/
theorem cautiousRunsDependOnNoOtherParameter : Obligations.CautiousRunsDependOnNoOtherParameter := by
  intro p order free
  refine ⟨fun i s h => execWith_of_cautious order free h, fun map unassigned s careful => ?step⟩
  rw [← stepWith_params]
  cases request : acceptedRequest s with
  | some m => rw [stepWith_of_request p request, stepWith_of_request params request]
  | none =>
    have sameWords := decode_fetch_consumeRequest s p
    rw [load_of_order order, load_of_order order] at sameWords
    cases decoded : decode (s.load s.pc) (s.load (s.pc + 1#16)) with
    | error e =>
      rw [stepWith_of_reject map request (sameWords.trans decoded),
        stepWith_of_reject (p := params) rfl request ((decode_fetch_consumeRequest s params).trans decoded),
        unassigned, load_of_order order]
      rfl
    | ok i =>
      have ok := careful i decoded
      rw [stepWith_of_decode map request (sameWords.trans decoded),
        stepWith_of_decode (p := params) rfl request ((decode_fetch_consumeRequest s params).trans decoded),
        fetch_of_order order, execWith_of_cautious order free ok, execWith_params, afterExec_of_cautious p ok]

end Sys2Proof.Machine
end
